-- ==== Sys2Proof/Word.lean ====
section
/-! DEFINITION. The plain types the manual numbers things with (00_scope.md section 2, R1, R2, R163): bytes,
channel, tag, highway, timeslot, phase, engine, bucket and profile numbers. Linear samples are `Int`, counts are `Nat`. -/

namespace Sys2Proof

/-- One byte of a control message or a link frame; also a highway code (R39) and a sequence number (R1). -/
abbrev Byte := BitVec 8

/-- A channel number 0..255 (R2). -/
abbrev Chan := Fin 256

/-- A circuit tag 0..4095 (R2). -/
abbrev Tag := Fin 4096

/-- A highway number H0..H7 (R28). -/
abbrev HighwayNo := Fin 8

/-- A timeslot number 0..31 within a highway (R28). -/
abbrev Timeslot := Fin 32

/-- One of the 256 timeslots of the eight highways: 32 times the highway number plus the timeslot number (R30). -/
abbrev SlotNo := Fin 256

/-- A value of the sample counter C, and a phase (R27, R98). -/
abbrev Phase := Fin 160

/-- A profile number P0..P15 (R163). -/
abbrev ProfileNo := Fin 16

/-- A conversion engine E0..E3 (R121). -/
abbrev EngineNo := Fin 4

/-- A phase bucket 0..15 (R128). -/
abbrev Bucket := Fin 16

/-- A timing token 1..3, or 0 for none (R98, R182). -/
abbrev Token := Fin 4

/-- The codes received in the 256 timeslots during one sample period, by `SlotNo` (R31). -/
abbrev HighwayCodes := Vector Byte 256

end Sys2Proof
end

