-- ==== Sys2Proof/Config.lean ====
section
/-! DEFINITION. What the part fixes for all time, in the units of the model's device time base (nanoseconds), and the
one value the manual leaves open. -/

namespace Sys2Proof.Config

/-- One sample period on the device time base, 125 µs, in ns (R27). -/
def samplePeriodNs : Nat := 125000

/-- The half width of the window around the expected instant in which a pulse is good, 15 µs, in ns (R23). -/
def goodWindowNs : Nat := 15000

/-- From a boundary to the deadline of the job it makes, 4000 µs, in ns (R117). -/
def deadlineNs : Nat := 4000000

/-- FREE VALUE (log entry 6): which cause a LINE notice ERROR names for a message, or a count byte, in which both a
parity error and a framing error occurred. R174 says "PARITY or FRAMING for a bad message" and states no choice.
`true` reads as FRAMING, `false` as PARITY; applied to the state's counter of free values. -/
opaque mixedErrorIsFraming : Nat → Bool

end Sys2Proof.Config
end

