-- ==== Sys2Proof/Machine/LineByte.lean ====
section
/-! DEFINITION. One byte on the control line (R173, R174): its frame of a start bit, eight data bits, a parity bit where the
parity is even or odd, and a stop bit; as it is sent, and as the receiver reads it. -/

namespace Sys2Proof.Machine

/-- Control line parity (R173). -/
inductive LineParity where
  | none
  | even
  | odd
  deriving DecidableEq, Repr

/-- The line errors of one received control-line byte (R174). -/
inductive ByteError where
  | none
  | parity
  | framing
  | both
  deriving DecidableEq, Repr

/-- The byte of its data bits, least significant first (R173). -/
def byteOfBits (bits : List Bool) : Byte := BitVec.ofNat 8 (bits.foldr (fun b n => b.toNat + 2 * n) 0)

/-- The data bits of a byte, least significant first (R173). -/
def dataBits (b : Byte) : List Bool := (List.range 8).map fun i => b.getLsbD i

/-- Whether a byte has an odd number of ones. -/
def oddOnes (b : Byte) : Bool := (dataBits b).foldl xor false

/-- The parity bit of a byte, absent with parity none (R173). That it makes the ones of the data bits and itself even or
odd in number is what the words mean elsewhere (log entry 30). -/
def parityBit (p : LineParity) (b : Byte) : Option Bool :=
  match p with
  | .none => .none
  | .even => some (oddOnes b)
  | .odd => some (!oddOnes b)

/-- The bits of a byte on the line: a low start bit, the data bits, and the bits that follow them (R173). The level of the
start bit is log entry 30's. -/
def frameBits (b : Byte) (tail : List Bool) : List Bool := false :: (dataBits b ++ tail)

/-- A byte sent without error: after the data bits its parity bit, if any, and a high stop bit, 10 bits without parity and
11 with it (R173). -/
def byteFrame (p : LineParity) (b : Byte) : List Bool := frameBits b ((parityBit p b).toList ++ [true])

/-- The errors of a byte, by kind. -/
def byteErrorOf (parityErr framingErr : Bool) : ByteError :=
  match parityErr, framingErr with
  | false, false => .none
  | true, false => .parity
  | false, true => .framing
  | true, true => .both

/-- A frame read with the receiver's parity: the byte, with a parity error where its parity bit is not the byte's own and
a framing error where the stop bit is low (R174). Bits that are no frame at this parity (no low start bit, another number
of bits) are no byte. -/
def readFrame (p : LineParity) (bits : List Bool) : Option (Byte × ByteError) :=
  match bits with
  | false :: b0 :: b1 :: b2 :: b3 :: b4 :: b5 :: b6 :: b7 :: more =>
    let b := byteOfBits [b0, b1, b2, b3, b4, b5, b6, b7]
    match parityBit p b, more with
    | .none, [stop] => some (b, byteErrorOf false (!stop))
    | some q, [got, stop] => some (b, byteErrorOf (got != q) (!stop))
    | _, _ => .none
  | _ => .none

/-- Bits that can follow the data bits at some parity: a stop bit, or a parity bit and a stop bit (R173). -/
def isByteTail (tail : List Bool) : Bool := tail.length = 1 || tail.length = 2

end Sys2Proof.Machine
end

