-- ==== Sys2Proof/Syntax.lean ====
section
/-! DEFINITION. The commands of the block: one constructor per row of spec/opcode_table.json, each a step of
95_what_each_step_holds.md. The seventeen order rows and UNKNOWN_ORDER carry no operand: each is the order processor
taking the oldest order of its kind from the order buffer, whose bytes hold the operands (R175, R176). -/

namespace Sys2Proof

/-- The kind of a conversion job (R117). -/
inductive JobKind where
  | encode
  | decode
  deriving DecidableEq, Repr

/-- The commands of the WTC-4256, one per row of the table. -/
inductive Instr where
  /-- HARDWARE_RESET with the sampled levels of the straps START, LAW and LINE, `true` for high (R21, R171). -/
  | hardwareReset (start law line : Bool)
  /-- FSYNC_PULSE `tNs` nanoseconds after the start of the period in progress, with the codes received in that
  period (R23, R31). -/
  | fsyncPulse (tNs : Nat) (codes : HighwayCodes)
  /-- MISSING_PERIOD_START, with the codes received in the period that ends (R23, R31). -/
  | missingPeriodStart (codes : HighwayCodes)
  | uplinkBoundary (ch : Chan)
  | downlinkBoundary (ch : Chan)
  | supervisionWindowEnd (ch : Chan)
  | retryTimerExpiry (ch : Chan)
  | outputBlockStart (ch : Chan)
  | jobCompletion (e : EngineNo)
  | jobDeadline (ch : Chan) (kind : JobKind)
  | loadWindowEnd
  /-- LINK_FRAME_ARRIVAL of a unit with these bytes between its delimiters (R136, R137). -/
  | linkFrameArrival (bytes : List Byte)
  | unitAborted
  | observationWindowEnd (ch : Chan)
  | carrierLost
  | carrierGained
  | pauseIndication
  | resumeIndication
  | linkTransmissionEnd
  /-- CONTROL_MESSAGE_RECEIVED: the last byte of a message, and the bits that follow its data bits on the line (R173, R174). -/
  | controlMessageReceived (b : Byte) (tail : List Bool)
  | gapTimeout
  /-- BAD_COUNT_BYTE: the byte received in COUNT, and the bits that follow its data bits on the line (R173, R174). -/
  | badCountByte (b : Byte) (tail : List Bool)
  | controlTransmitEnd
  | identify
  | readStatus
  | setMode
  | setHighway
  | setProfile
  | getProfile
  | setDevice
  | openCall
  | modify
  | close
  | query
  | clearFaults
  | readHistory
  | clearHistory
  | ackNotices
  | restart
  | setLine
  /-- START_MARKER: the byte 0xC5, received without error (R174). -/
  | startMarker
  /-- COUNT_BYTE: the count byte, received without error (R174). -/
  | countByte (b : Byte)
  /-- BODY_BYTE: a body byte other than the last, and the bits that follow its data bits on the line (R173, R174). -/
  | bodyByte (b : Byte) (tail : List Bool)
  | unknownOrder
  | startDelimiter
  deriving DecidableEq, Repr

end Sys2Proof
end

