-- ==== Sys2Proof/WellFormed.lean ====
section
/-! DEFINITION. When a command is the event its row names: four rows of the control line's receiver, whose byte the rows'
summaries limit and whose last bits R173 limits (R173, R174). -/

namespace Sys2Proof

open Machine

/-- A count byte the receiver accepts: its value lies in 2..250 (R174). -/
def goodCount (b : Byte) : Bool := 2 ≤ b.toNat && b.toNat ≤ 250

/-- A count byte lies in 2..250, and a bad count byte is not such a byte with its stop bit high; the bits after a byte's data
bits are a stop bit, or a parity bit and a stop bit. Whether a parity bit is in error depends on the line settings, so a byte
with one may be a bad count byte whatever it holds. Every other command is well formed with any operands of its types. -/
def WellFormed : Instr → Bool
  | .countByte b => goodCount b
  | .badCountByte b tail => isByteTail tail && (tail.length = 2 || !(tail == [true] && goodCount b))
  | .bodyByte _ tail | .controlMessageReceived _ tail => isByteTail tail
  | .hardwareReset _ _ _ | .fsyncPulse _ _ | .missingPeriodStart _ | .uplinkBoundary _ | .downlinkBoundary _
  | .supervisionWindowEnd _ | .retryTimerExpiry _ | .outputBlockStart _ | .jobCompletion _ | .jobDeadline _ _
  | .loadWindowEnd | .linkFrameArrival _ | .unitAborted | .observationWindowEnd _ | .carrierLost | .carrierGained
  | .pauseIndication | .resumeIndication | .linkTransmissionEnd | .gapTimeout
  | .controlTransmitEnd | .identify | .readStatus | .setMode | .setHighway | .setProfile | .getProfile | .setDevice
  | .openCall | .modify | .close | .query | .clearFaults | .readHistory | .clearHistory | .ackNotices | .restart
  | .setLine | .startMarker | .unknownOrder | .startDelimiter => true

end Sys2Proof
end

