-- ==== Sys2Proof/Decode.lean ====
section
/-! DEFINITION. spec/opcode_table.json gives no row any bits: the commands are events and orders, not words of an
instruction stream. So no word spells a command. -/

namespace Sys2Proof

/-- The command that an `nbits`-bit word spells by the table's bits: none, since no row of the table has bits. -/
def decodeTableWord (_nbits _w : Nat) : Option Instr := none

end Sys2Proof
end

