-- ==== Sys2Proof/Machine/State.lean ====
section
/-! DEFINITION. The state of the WTC-4256 as plain data: every piece of state the manual gives the part, by the block
that owns it (00_scope.md section 1.2), the fields the model adds for its own bookkeeping, and the state after hardware
reset. INVENTORY.md lists each field with the rule that names it. -/

namespace Sys2Proof.Machine

/-! ## Reasons to stop -/

/-- No command of this part stops with a fault: the manual gives an effect for every event and order, and an event
whose condition does not hold does not occur. The type is empty. -/
inductive Fault where
  deriving DecidableEq, Repr

/-- Why a command may be refused. -/
inductive Refusal where
  /-- Raised by the arm of a command that has no meaning yet (safe: the machine stops). No arm of this model raises it. -/
  | notModelled (mnemonic : String)
  deriving DecidableEq, Repr

/-! ## Named values -/

/-- Reference sync state (R24). -/
inductive SyncState where
  | locked
  | holdover
  | lost
  deriving DecidableEq, Repr

/-- Link state (R133). -/
inductive LinkState where
  | down
  | up
  | paused
  deriving DecidableEq, Repr

/-- Load state (R130). -/
inductive LoadState where
  | normal
  | overloaded
  deriving DecidableEq, Repr

/-- Operating mode (R169). -/
inductive Mode where
  | setup
  | service
  | drain
  deriving DecidableEq, Repr

/-- Companding law of a highway (R28, R39). -/
inductive Law where
  | aLaw
  | muLaw
  deriving DecidableEq, Repr

/-- Link rate (R52), highest first. -/
inductive Rate where
  | l32
  | l24
  | l16
  deriving DecidableEq, Repr

/-- Link frame kind (R53, R182). -/
inductive FrameKind where
  | speech
  | sid
  | noData
  | endCall
  deriving DecidableEq, Repr

/-- State of a channel that is not FREE (R4). A FREE channel is one without a context. -/
inductive CallState where
  | aligning
  | active
  | faulted
  | closing
  deriving DecidableEq, Repr

/-- Playout state (R88). -/
inductive PlayoutState where
  | waiting
  | playing
  deriving DecidableEq, Repr

/-- Output mode (R34, R35). CONCEALED(j) is `concealed`, with j the context's concealment index. -/
inductive OutputMode where
  | decoded
  | concealed
  | noise
  | muted
  | idle
  deriving DecidableEq, Repr

/-- How the result of a submitted DECODE job stands until the output block start that uses it (R33). -/
inductive DecodeMark where
  | pending
  | ready (block : List Int)
  | missed
  | withdrawn
  deriving DecidableEq, Repr

/-- What a downlink boundary hands to the next output block start (R33). -/
inductive BoundaryOutcome where
  | decode (mark : DecodeMark)
  | sid
  | noData
  | missing
  | endFrame
  | none
  deriving DecidableEq, Repr

/-- Direction of the part's downlink timing request (R98). -/
inductive RequestDir where
  | sendEarlier
  | sendLater
  deriving DecidableEq, Repr

/-- Direction of the radio side's uplink adjust (R98). -/
inductive AdjustDir where
  | advance
  | retard
  deriving DecidableEq, Repr

/-- Fault kinds, in the order of the table of R146. -/
inductive FaultKind where
  | starvation
  | late
  | drift
  | overload
  | deadline
  | highway
  | link
  deriving DecidableEq, Repr

/-- Response class of a fault kind (R150, R163). -/
inductive FaultClass where
  | off
  | report
  | retry
  | latched
  deriving DecidableEq, Repr

/-- Recognised state of a fault kind (R145). -/
inductive Recognised where
  | none
  | reported
  | retrying
  | latched
  deriving DecidableEq, Repr

/-- Captured class of a fault kind; RETRY is captured with its retry limit (R145). -/
inductive Captured where
  | none
  | report
  | retry (limit : Nat)
  | latched
  deriving DecidableEq, Repr

/-- Event of a fault history record (R161). -/
inductive FaultEvent where
  | raised
  | escalated
  | cleared
  deriving DecidableEq, Repr

/-- History style (R161, R168). -/
inductive HistoryStyle where
  | wrap
  | keepFirst
  | off
  deriving DecidableEq, Repr

/-- Downlink output of a FAULTED channel (R34, R163). -/
inductive OutDn where
  | idle
  | noise
  | hold
  deriving DecidableEq, Repr

/-- Uplink frame of a FAULTED channel (R144, R163). -/
inductive OutUp where
  | noData
  | sid
  | silent
  deriving DecidableEq, Repr

/-- Control line speed, in ascending order (R173). -/
inductive LineSpeed where
  | b9600
  | b19200
  | b38400
  | b57600
  | b115200
  deriving DecidableEq, Repr

/-- Cause of a LINE notice ERROR (R174, R181). -/
inductive LineCause where
  | parity
  | framing
  | gap
  | count
  deriving DecidableEq, Repr

/-! ## Records -/

/-- One entry of a playout queue (R77). -/
structure QueueEntry where
  seq : Byte
  kind : FrameKind
  rate : Option Rate
  payload : List Byte
  deriving DecidableEq, Repr

/-- The part's outstanding downlink timing request (R98). -/
structure TimingRequest where
  dir : RequestDir
  k : Nat
  token : Token
  deriving DecidableEq, Repr

/-- The radio side's pending uplink adjust (R98). -/
structure UplinkAdjust where
  dir : AdjustDir
  k : Nat
  token : Token
  deriving DecidableEq, Repr

/-- The fault record of one kind (R145). -/
structure FaultRecord where
  present : Bool
  state : Recognised
  captured : Captured
  retryCount : Nat
  remaining : Nat
  deriving DecidableEq, Repr

/-- The 16 statistics counters of a channel, in the order of R18. -/
structure Stats where
  framesOut : Nat
  framesIn : Nat
  late : Nat
  duplicate : Nat
  tooEarly : Nat
  resyncs : Nat
  missing : Nat
  concealed : Nat
  encMiss : Nat
  decMiss : Nat
  egressOverruns : Nat
  satUp : Nat
  satDn : Nat
  adjustsApplied : Nat
  requestsSent : Nat
  discardedInFault : Nat
  deriving DecidableEq, Repr

/-- The context of a channel that is not FREE (R3, R98, R144, R145). -/
structure Context where
  -- identity
  state : CallState
  tag : Tag
  highway : HighwayNo
  timeslot : Timeslot
  profile : ProfileNo
  -- open-time copies
  initialRate : Rate
  gainUp : Int
  gainDn : Int
  /-- The gain down held at the start of the period in progress, which its code uses (R37, R48). -/
  gainNow : Int
  startDepth : Nat
  dtx : Bool
  hangover : Nat
  concealLimit : Nat
  -- timing
  phiUp : Phase
  phiDn : Phase
  nUp : Nat
  blockLen : Nat
  /-- The model's own: OPEN was taken in the period in progress, so the write at its end is not made (R7). -/
  fresh : Bool
  -- uplink
  /-- The sample ring, newest sample first (R31). -/
  ring : List Int
  encY : Int
  upRate : Rate
  hangCount : Nat
  lastKind : FrameKind
  sidAge : Nat
  upSeq : Byte
  adjust : Option UplinkAdjust
  upEcho : Token
  rateReq : Option Rate
  -- downlink
  queue : List QueueEntry
  expected : Option Byte
  playout : PlayoutState
  started : Bool
  tooEarlyRun : Nat
  output : OutputMode
  concealIndex : Nat
  lastGood : List Int
  decY : Int
  noiseLevel : Option Nat
  noiseGen : BitVec 16
  starvation : Nat
  outcome : BoundaryOutcome
  /-- The samples of the output block being played, before gain (R37). -/
  block : List Int
  -- alignment
  winCount : Nat
  winMin : Option Int
  winLate : Nat
  request : Option TimingRequest
  lastToken : Token
  drift : Nat
  -- supervision
  faults : Vector FaultRecord 7
  window : Option Nat
  satUpWin : Nat
  satDnWin : Nat
  missWin : Nat
  -- statistics
  stats : Stats
  deriving DecidableEq, Repr

/-- The configuration record of one highway (R28). -/
structure HighwayRecord where
  enabled : Bool
  law : Law
  /-- The reserved set: entry n says whether timeslot n is reserved. -/
  reserved : Vector Bool 32
  deriving DecidableEq, Repr

/-- The highway interface (R23 to R38). -/
structure HighwayBlock where
  sync : SyncState
  goodRun : Nat
  missingRun : Nat
  c : Phase
  cycle : BitVec 32
  /-- Start of the period in progress on the device time base, in ns (R27). -/
  periodStart : Nat
  /-- The local timer: the expected instant of the next period start, in ns after the start of this one (R23, R25). -/
  expected : Nat
  records : Vector HighwayRecord 8
  bindings : Vector (Option Chan) 256
  /-- The code driven in each timeslot in this period; absent where the line is left undriven (R37). -/
  driven : Vector (Option Byte) 256
  deriving DecidableEq, Repr

/-- A job's input (R117). -/
inductive JobInput where
  | samples (xs : List Int)
  | payload (bs : List Byte)
  deriving DecidableEq, Repr

/-- A conversion job (R117). -/
structure Job where
  chan : Chan
  kind : JobKind
  rate : Rate
  deadline : Nat
  input : JobInput
  deriving DecidableEq, Repr

/-- What a job read from the channel and its profile when its engine started it (R62, R64). -/
structure CodecRead where
  encY : Int
  hangCount : Nat
  lastKind : FrameKind
  sidAge : Nat
  dtx : Bool
  hangover : Nat
  vadLevel : Nat
  decY : Int
  deriving DecidableEq, Repr

/-- The job a running engine holds, its start and completion instants, its mark and what it read (R117, R121). -/
structure Running where
  job : Job
  start : Nat
  done : Nat
  marked : Bool
  read : CodecRead
  deriving DecidableEq, Repr

/-- The load monitor (R130). -/
structure LoadMonitor where
  state : LoadState
  misses : Nat
  wraps : Nat
  deriving DecidableEq, Repr

/-- The conversion engines, the job queue, the phase bucket table and the load monitor (R117 to R132). -/
structure EngineBlock where
  queue : List Job
  engines : Vector (Option Running) 4
  buckets : Vector Nat 16
  load : LoadMonitor
  deriving DecidableEq, Repr

/-- An uplink frame with the header it was placed with (R143). -/
structure Frame where
  kind : FrameKind
  tag : Tag
  seq : Byte
  rate : Option Rate
  rateReq : Option Rate
  request : Option TimingRequest
  echo : Token
  payload : List Byte
  deriving DecidableEq, Repr

/-- A full egress slot (R133). -/
structure Slot where
  frame : Frame
  leftOver : Bool
  deriving DecidableEq, Repr

/-- The delimiter that ended the last transmission on the link: end, or abort (R136, R142). -/
inductive Delimiter where
  | none
  | endDelimiter
  | abortDelimiter
  deriving DecidableEq, Repr

/-- The link port (R133). -/
structure LinkPort where
  state : LinkState
  /-- A unit is being received: its start delimiter has come, its end has not (R136). -/
  receiving : Bool
  errLength : Nat
  errFormat : Nat
  errUnknownTag : Nat
  errNotAccepting : Nat
  slots : Vector (Option Slot) 256
  txQueue : List Chan
  /-- The transmitter: idle, or sending the head channel's frame, which takes this many ns (R141). -/
  sending : Option Nat
  lastDelimiter : Delimiter
  deriving DecidableEq, Repr

/-- A fault history record (R161). -/
structure HistoryRecord where
  cycle : BitVec 32
  chan : Chan
  kind : FaultKind
  cls : FaultClass
  event : FaultEvent
  deriving DecidableEq, Repr

/-- A set of rates (R163). -/
structure RateSet where
  l32 : Bool
  l24 : Bool
  l16 : Bool
  deriving DecidableEq, Repr

/-- A profile and its defaulted marker (R163). -/
structure Profile where
  rateSet : RateSet
  initialRate : Rate
  gainUp : Int
  gainDn : Int
  startDepth : Nat
  marginLo : Nat
  marginHi : Nat
  dtx : Bool
  vadLevel : Nat
  hangover : Nat
  concealLimit : Nat
  outDn : OutDn
  outUp : OutUp
  starveCycles : Nat
  lateLimit : Nat
  overloadLimit : Nat
  driftLimit : Nat
  missLimit : Nat
  cls : Vector FaultClass 7
  retryTime : Vector Nat 7
  retryLimit : Vector Nat 7
  defaulted : Bool
  deriving DecidableEq, Repr

/-- Line settings (R173). -/
structure LineSettings where
  speed : LineSpeed
  parity : LineParity
  deriving DecidableEq, Repr

/-- Device settings (R168): the history style, LOAD_LIMIT, the notice class levels in the order FAULT, CALL, LINK,
SYNC, CONFIG, LOAD, LINE, and the line settings. -/
structure DeviceSettings where
  historyStyle : HistoryStyle
  loadLimit : Nat
  levels : Vector Nat 7
  line : LineSettings
  deriving DecidableEq, Repr

/-- Receive framing state (R174). In BODY: the count, the bytes stored so far (oldest first) and the error marks. -/
inductive RxState where
  | hunt
  | count
  | body (n : Nat) (got : List Byte) (parityErr framingErr : Bool)
  deriving DecidableEq, Repr

/-- A complete order in the order buffer, or an answer in the answer slot: kind, tag and body (R175, R176, R181). -/
structure Message where
  kind : Byte
  tag : Byte
  body : List Byte
  deriving DecidableEq, Repr

/-- What a notice reports, with what its kind carries (R178). -/
inductive NoticeBody where
  | faultRaised (ch : Chan) (k : FaultKind)
  | faultEscalated (ch : Chan) (k : FaultKind)
  | faultCleared (ch : Chan) (k : FaultKind)
  | callActive (ch : Chan)
  | callFarEnd (ch : Chan)
  | linkState (st : LinkState)
  | syncState (st : SyncState)
  | configDefaulted (ch : Chan)
  | configMode (m : Mode)
  | loadState (st : LoadState)
  | lineError (cause : LineCause)
  | lineOverrun
  deriving DecidableEq, Repr

/-- A notice (R178). -/
structure Notice where
  level : Nat
  cycle : BitVec 32
  body : NoticeBody
  deriving DecidableEq, Repr

/-- The order processor: idle, or holding a CLOSE of this host tag and channel (R176). It is working only within a
command, never between two. -/
inductive Processor where
  | idle
  | holding (tag : Byte) (ch : Chan)
  deriving DecidableEq, Repr

/-- The control line transmitter: idle, sending the answer in the slot, or sending a notice (R177). -/
inductive CtlTransmitter where
  | idle
  | answer
  | notice (n : Notice)
  deriving DecidableEq, Repr

/-- The control line (R173 to R179). -/
structure ControlLine where
  rx : RxState
  buffer : List Message
  overrun : Bool
  proc : Processor
  answer : Option Message
  notices : List Notice
  tx : CtlTransmitter
  /-- Pending flags, bit 0 FAULT to bit 6 LINE (R179). -/
  flags : BitVec 8
  /-- The settings of an accepted SET LINE whose answer has not yet been sent (R173). -/
  newLine : Option LineSettings
  deriving DecidableEq, Repr

/-- An event the period start in progress has raised and that has not yet been taken (R31, R32, R130). -/
inductive Due where
  | uplink (ch : Chan)
  | downlink (ch : Chan)
  | blockStart (ch : Chan)
  | loadWindowEnd
  deriving DecidableEq, Repr

/-- A step that is the rest of the event just taken: no other event comes between (R99, R149). -/
inductive Rest where
  | supervisionWindow (ch : Chan)
  | retryExpiry (ch : Chan)
  | observationWindow (ch : Chan)
  deriving DecidableEq, Repr

/-- The state of the part. -/
structure State where
  hw : HighwayBlock
  /-- The channel table; a channel without a context is FREE (R2, R3). -/
  chan : Vector (Option Context) 256
  /-- The circuit tag map (R2). -/
  tagMap : Vector (Option Chan) 4096
  eng : EngineBlock
  link : LinkPort
  /-- The link port's fault frame count, one per channel, FREE ones too (R133, R144). -/
  faultFrames : Vector Nat 256
  history : List HistoryRecord
  profiles : Vector Profile 16
  settings : DeviceSettings
  mode : Mode
  ctl : ControlLine
  /-- The model's own: events raised at this period start and not yet taken. -/
  due : List Due
  /-- The model's own: events of the next period start commanded ahead of it. -/
  ahead : List Due
  /-- The model's own: steps that finish the event last taken. -/
  rest : List Rest
  /-- The model's own: how many free values have been used. -/
  freeCount : Nat
  /-- The commands waiting, first in, first out. -/
  pending : List Instr
  deriving DecidableEq, Repr

/-! ## The state after hardware reset -/

/-- The default class of each fault kind (R164). -/
def defaultClasses : Vector FaultClass 7 :=
  #v[.retry, .report, .report, .report, .retry, .retry, .retry]

/-- The default retry times (R164). -/
def defaultRetryTimes : Vector Nat 7 := #v[50, 25, 25, 25, 25, 10, 10]

/-- The default retry limits (R164). -/
def defaultRetryLimits : Vector Nat 7 := #v[0, 0, 0, 0, 3, 0, 0]

/-- A profile at its defaults, marker clear (R163, R164). -/
def Profile.default : Profile where
  rateSet := ⟨true, true, true⟩
  initialRate := .l24
  gainUp := 0
  gainDn := 0
  startDepth := 2
  marginLo := 60
  marginHi := 300
  dtx := true
  vadLevel := 256
  hangover := 6
  concealLimit := 5
  outDn := .idle
  outUp := .noData
  starveCycles := 25
  lateLimit := 10
  overloadLimit := 800
  driftLimit := 25
  missLimit := 5
  cls := defaultClasses
  retryTime := defaultRetryTimes
  retryLimit := defaultRetryLimits
  defaulted := false

/-- The highway interface at hardware reset, with the law of the LAW strap (R38). -/
def HighwayBlock.reset (law : Law) : HighwayBlock where
  sync := .lost
  goodRun := 0
  missingRun := 0
  c := 0
  cycle := 0
  periodStart := 0
  expected := Config.samplePeriodNs
  records := Vector.replicate 8 ⟨true, law, Vector.replicate 32 false⟩
  bindings := Vector.replicate 256 none
  driven := Vector.replicate 256 none

/-- The load monitor at hardware reset and at RESTART (R130). -/
def LoadMonitor.reset : LoadMonitor := ⟨.normal, 0, 50⟩

/-- The engines, queue, buckets and load monitor at hardware reset and at RESTART (R119, R121, R128, R130). -/
def EngineBlock.reset : EngineBlock where
  queue := []
  engines := Vector.replicate 4 none
  buckets := Vector.replicate 16 0
  load := .reset

/-- The link port at hardware reset (R133). -/
def LinkPort.reset : LinkPort where
  state := .down
  receiving := false
  errLength := 0
  errFormat := 0
  errUnknownTag := 0
  errNotAccepting := 0
  slots := Vector.replicate 256 none
  txQueue := []
  sending := none
  lastDelimiter := .none

/-- The device settings at hardware reset (R168, R171). -/
def DeviceSettings.reset (line : LineSettings) : DeviceSettings where
  historyStyle := .wrap
  loadLimit := 16
  levels := #v[3, 1, 2, 2, 1, 2, 1]
  line := line

/-- The control line at hardware reset (R174 to R179). -/
def ControlLine.reset : ControlLine where
  rx := .hunt
  buffer := []
  overrun := false
  proc := .idle
  answer := none
  notices := []
  tx := .idle
  flags := 0
  newLine := none

/-- The line settings the LINE strap selects, `true` for high (R171). -/
def strapLine : Bool → LineSettings
  | false => ⟨.b115200, .none⟩
  | true => ⟨.b19200, .even⟩

/-- The state after hardware reset with the sampled levels of the three straps, `true` for high (R21, R171, R172). -/
def State.resetWith (start law line : Bool) : State where
  hw := .reset (if law then .muLaw else .aLaw)
  chan := Vector.replicate 256 none
  tagMap := Vector.replicate 4096 none
  eng := .reset
  link := .reset
  faultFrames := Vector.replicate 256 0
  history := []
  profiles := Vector.replicate 16 .default
  settings := .reset (strapLine line)
  mode := if start then .service else .setup
  ctl := .reset
  due := []
  ahead := []
  rest := []
  freeCount := 0
  pending := []

/-- The state after hardware reset, with all three straps low (DESIGN CHOICE, log entry 1). -/
def State.reset : State := State.resetWith false false false

end Sys2Proof.Machine
end

