-- ==== Sys2Proof/Machine/Arith.lean ====
section
/-! DEFINITION. The conventions of R1: saturating counters and clamps. Floor division is `/` on `Int`: every divisor
of the manual is positive, and there `Int./` rounds toward minus infinity; "x mod n" is `%`. -/

namespace Sys2Proof.Machine

/-- Clamped to lo..hi (R1). -/
def clamp (lo hi x : Int) : Int := if x < lo then lo else if hi < x then hi else x

/-- Clamped to the range of linear samples (R1). -/
def clampSample (x : Int) : Int := clamp (-32768) 32767 x

/-- A count that rises by 1 and stops at `top`. -/
def upTo (top n : Nat) : Nat := min top (n + 1)

/-- A statistics or link error counter after one more event: it stops at 65535 (R1, R18, R138). -/
def bump (n : Nat) : Nat := upTo 65535 n

/-- Addition of phases modulo 160 (R108). -/
def phaseAdd (p : Phase) (k : Nat) : Phase := Fin.ofNat 160 (p.val + k)

/-- Subtraction of k, at most 160, from a phase modulo 160 (R108). -/
def phaseSub (p : Phase) (k : Nat) : Phase := Fin.ofNat 160 (p.val + 160 - k)

/-- The number of periods from phase `a` on to phase `b`: (b − a) mod 160. -/
def phaseDist (a b : Phase) : Nat := (b.val + 160 - a.val) % 160

/-- The distance of a sequence number ahead of `expected`, modulo 256 (R1, R76). -/
def seqDistance (expected seq : Byte) : Nat := (seq - expected).toNat

/-- bucket(φ) = floor(φ/10) (R128). -/
def bucketOf (p : Phase) : Bucket := Fin.ofNat 16 (p.val / 10)

/-- The timeslot of a highway as one of the 256 (R30). -/
def slotNo (h : HighwayNo) (t : Timeslot) : SlotNo := Fin.ofNat 256 (32 * h.val + t.val)

/-- Every channel number, ascending. -/
def allChannels : List Chan := List.finRange 256

/-- Every fault kind, in the order of the table of R146. -/
def allKinds : List FaultKind := [.starvation, .late, .drift, .overload, .deadline, .highway, .link]

/-- A fault kind's place in the order of R146. -/
def FaultKind.index : FaultKind → Fin 7
  | .starvation => 0
  | .late => 1
  | .drift => 2
  | .overload => 3
  | .deadline => 4
  | .highway => 5
  | .link => 6

/-- B, the number of bits in each coded sample (R52). -/
def Rate.bits : Rate → Nat
  | .l32 => 4
  | .l24 => 3
  | .l16 => 2

/-- The speech payload of a rate, in bytes (R52). -/
def Rate.payloadBytes : Rate → Nat
  | .l32 => 82
  | .l24 => 62
  | .l16 => 42

/-- Membership of a rate in a set. -/
def RateSet.mem (rs : RateSet) : Rate → Bool
  | .l32 => rs.l32
  | .l24 => rs.l24
  | .l16 => rs.l16

/-- The highest member of a rate set, L32 above L24 above L16 (R6, R114); absent only for the empty set, which no
profile holds. -/
def RateSet.highest (rs : RateSet) : Option Rate :=
  [Rate.l32, .l24, .l16].find? rs.mem

/-- The settled rate of R113: the rate itself if a member, else the highest member below it, else the lowest member. -/
def RateSet.settle (rs : RateSet) (r : Rate) : Rate :=
  let order : List Rate := match r with
    | .l32 => [.l32, .l24, .l16]
    | .l24 => [.l24, .l16, .l32]
    | .l16 => [.l16, .l24, .l32]
  (order.find? rs.mem).getD r

end Sys2Proof.Machine
end

