-- ==== Sys2Proof/Machine/Companding.lean ====
section
/-! DEFINITION. Companding and level arithmetic (03_companding_and_level_arithmetic.md): expansion, compression, the
idle codes and the gain stage. -/

namespace Sys2Proof.Machine

/-- A-law expansion (R40). -/
def expandALaw (c : Byte) : Int :=
  let a := (c ^^^ 0x55#8).toNat
  let s := a / 16 % 8
  let m := a % 16
  let t : Nat := if s = 0 then 16 * m + 8 else (16 * m + 264) * 2 ^ (s - 1)
  if a / 128 = 1 then (t : Int) else -(t : Int)

/-- mu-law expansion (R41). -/
def expandMuLaw (c : Byte) : Int :=
  let a := 255 - c.toNat
  let s := a / 16 % 8
  let m := a % 16
  let t : Nat := (8 * m + 132) * 2 ^ s
  if a / 128 = 1 then 132 - (t : Int) else (t : Int) - 132

/-- Segment and step of a magnitude: the value 16·s + m of R42 and R43, for a magnitude of at least 256. -/
def segmentStep (mag : Nat) : Nat :=
  let s := Nat.log2 mag - 7
  16 * s + mag / 2 ^ (s + 3) % 16

/-- A-law compression (R42). -/
def compressALaw (x : Int) : Byte :=
  let sign : Nat := if 0 ≤ x then 0x80 else 0
  let mag : Nat := if 0 ≤ x then x.toNat else (-x - 1).toNat
  let sm := if mag < 256 then mag / 16 else segmentStep mag
  BitVec.ofNat 8 (sign + sm) ^^^ 0x55#8

/-- mu-law compression (R43). -/
def compressMuLaw (x : Int) : Byte :=
  let sign : Nat := if x < 0 then 0x80 else 0
  let biased := min x.natAbs 32635 + 132
  BitVec.ofNat 8 (255 - (sign + segmentStep biased))

/-- Expansion by a highway's law (R39). -/
def expand : Law → Byte → Int
  | .aLaw => expandALaw
  | .muLaw => expandMuLaw

/-- Compression by a highway's law (R39). -/
def compress : Law → Int → Byte
  | .aLaw => compressALaw
  | .muLaw => compressMuLaw

/-- The idle code of a law (R44). -/
def idleCode : Law → Byte
  | .aLaw => 0xD5#8
  | .muLaw => 0xFF#8

/-- The multipliers G of the gain indices −12..+12, in order (R45). -/
def gainTable : List Nat :=
  [257, 289, 324, 363, 408, 457, 513, 576, 646, 725, 813, 913, 1024,
   1149, 1289, 1446, 1623, 1821, 2043, 2292, 2572, 2886, 3238, 3633, 4077]

/-- The multiplier G of a gain index (R45). No index outside −12..+12 reaches a context. -/
def gainMultiplier (g : Int) : Nat := gainTable.getD (g + 12).toNat 1024

/-- The unclamped result of the gain stage (R46). -/
def gainUnclamped (g x : Int) : Int := (x * gainMultiplier g + 512) / 1024

/-- The gained sample (R46). -/
def gainSample (g x : Int) : Int := clampSample (gainUnclamped g x)

/-- Whether the gain stage clamps this sample (R46, R49). -/
def gainClamps (g x : Int) : Bool := gainUnclamped g x < -32768 || 32767 < gainUnclamped g x

end Sys2Proof.Machine
end

