-- ==== Sys2Proof/Machine/Codec.lean ====
section
/-! DEFINITION. The link codec (04_the_link_codec.md): the predictor, the encoder and decoder, the packing of a speech
payload (R182), voice activity and DTX, comfort noise and concealment. -/

namespace Sys2Proof.Machine

/-! ## Bits of a speech payload -/

/-- The low `w` bits of a number, most significant first. -/
def bitsOf (w n : Nat) : List Bool := (List.range w).map fun i => n.testBit (w - 1 - i)

/-- A number from its bits, most significant first. -/
def ofBits (bs : List Bool) : Nat := bs.foldl (fun n b => 2 * n + b.toNat) 0

/-- Bytes of a bit string, most significant bit first; the payloads of R52 fill their last byte exactly. -/
def packBytes : List Bool → List Byte
  | a :: b :: c :: d :: e :: f :: g :: h :: rest => BitVec.ofNat 8 (ofBits [a, b, c, d, e, f, g, h]) :: packBytes rest
  | _ => []

/-- The bit string of a byte string, most significant bit first. -/
def unpackBytes (bs : List Byte) : List Bool := bs.flatMap fun b => bitsOf 8 b.toNat

/-- `count` numbers of `w` bits each from the front of a bit string. -/
def takeNumbers (w : Nat) : Nat → List Bool → List Nat
  | 0, _ => []
  | count + 1, bits => ofBits (bits.take w) :: takeNumbers w count (bits.drop w)

/-- One coded subframe: the scale q and its 40 codes (R53). -/
structure Subframe where
  q : Nat
  codes : List Nat
  deriving DecidableEq, Repr

/-- The speech payload of four subframes at a rate (R182). -/
def packPayload (r : Rate) (subs : List Subframe) : List Byte :=
  packBytes (subs.flatMap fun sf => bitsOf 4 sf.q ++ sf.codes.flatMap (bitsOf r.bits))

/-- `n` subframes from the front of a bit string (R182). -/
def takeSubframes (r : Rate) : Nat → List Bool → List Subframe
  | 0, _ => []
  | n + 1, bits =>
    ⟨ofBits (bits.take 4), takeNumbers r.bits 40 (bits.drop 4)⟩ :: takeSubframes r n (bits.drop (4 + 40 * r.bits))

/-- The four subframes of a speech payload (R182). -/
def unpackPayload (r : Rate) (bs : List Byte) : List Subframe := takeSubframes r 4 (unpackBytes bs)

/-! ## Predictor, encoder and decoder -/

/-- The prediction p = floor(7·y_prev/8) (R54). -/
def predict (y : Int) : Int := 7 * y / 8

/-- The level of code v at scale q and B bits (R57, R64). -/
def codeLevel (b q v : Nat) : Int := (2 * (v : Int) - (2 ^ b - 1)) * 2 ^ q

/-- The reconstruction from y_prev of code v (R57 step 4, R64 step 3). -/
def reconstruct (b q : Nat) (y : Int) (v : Nat) : Int := clampSample (predict y + codeLevel b q v)

/-- The code of sample x against the encoder's y_prev (R57 steps 1 and 2). -/
def quantise (b q : Nat) (y x : Int) : Nat :=
  (clamp 0 (2 ^ b - 1) ((x - predict y) / 2 ^ (q + 1) + 2 ^ (b - 1))).toNat

/-- The largest open-loop residual of a subframe, given the input sample before it (R56). -/
def residualPeak : Int → List Int → Nat
  | _, [] => 0
  | before, x :: xs => max (x - predict before).natAbs (residualPeak x xs)

/-- The scale of a peak: the smallest q in 0..15 with (2^B − 1)·2^q ≥ P (R56). -/
def selectScale (b peak : Nat) : Nat := ((List.range 16).find? fun q => peak ≤ (2 ^ b - 1) * 2 ^ q).getD 15

/-- The codes of a subframe and the encoder's y_prev after it (R57). -/
def quantiseAll (b q : Nat) : Int → List Int → List Nat × Int
  | y, [] => ([], y)
  | y, x :: xs =>
    let v := quantise b q y x
    let r := quantiseAll b q (reconstruct b q y v) xs
    (v :: r.1, r.2)

/-- The coded subframes of successive groups of 40 samples, and the encoder's y_prev after them (R55 to R57). -/
def encodeSubframes (b : Nat) : Nat → Int → Int → List Int → List Subframe × Int
  | 0, _, y, _ => ([], y)
  | n + 1, before, y, xs =>
    let sub := xs.take 40
    let q := selectScale b (residualPeak before sub)
    let coded := quantiseAll b q y sub
    let more := encodeSubframes b n (sub.getLastD before) coded.2 (xs.drop 40)
    (⟨q, coded.1⟩ :: more.1, more.2)

/-- The payload of a SPEECH block of 161 input samples and the final y_prev (R55, R58). -/
def encodeSpeech (r : Rate) (y : Int) (input : List Int) : List Byte × Int :=
  let e := encodeSubframes r.bits 4 (input.headD 0) y (input.drop 1)
  (packPayload r e.1, e.2)

/-- The decoded samples of a list of codes, from y_prev (R64). -/
def decodeCodes (b q : Nat) : Int → List Nat → List Int
  | _, [] => []
  | y, v :: vs => reconstruct b q y v :: decodeCodes b q (reconstruct b q y v) vs

/-- The decoded samples of a list of subframes, from y_prev (R64). -/
def decodeSubframes (b : Nat) : Int → List Subframe → List Int
  | _, [] => []
  | y, sf :: rest =>
    let out := decodeCodes b sf.q y sf.codes
    out ++ decodeSubframes b (out.getLastD y) rest

/-- The decoded block of a speech payload (R64). -/
def decodeSpeech (r : Rate) (y : Int) (payload : List Byte) : List Int :=
  decodeSubframes r.bits y (unpackPayload r payload)

/-! ## Voice activity and DTX -/

/-- The activity measure M of the 160 block samples (R59). -/
def activity (block : List Int) : Nat := (block.map Int.natAbs).sum / 160

/-- The DTX state an ENCODE job works on: hangover count, last frame kind sent, sid_age (R60). -/
structure DtxState where
  hangCount : Nat
  lastKind : FrameKind
  sidAge : Nat
  deriving DecidableEq, Repr

/-- The kind of the frame and the DTX state after it (R60). -/
def decideKind (m vadLevel hangover : Nat) (dtx : Bool) (d : DtxState) : DtxState :=
  if vadLevel < m then ⟨hangover, .speech, d.sidAge⟩
  else if 0 < d.hangCount then ⟨d.hangCount - 1, .speech, d.sidAge⟩
  else if !dtx then ⟨d.hangCount, .speech, d.sidAge⟩
  else if d.lastKind = .speech then ⟨d.hangCount, .sid, 0⟩
  else if 8 ≤ d.sidAge + 1 then ⟨d.hangCount, .sid, 0⟩
  else ⟨d.hangCount, .noData, d.sidAge + 1⟩

/-- The SID level of an activity measure (R61). -/
def sidLevel (m : Nat) : Nat := min 63 (m / 32)

/-- What an ENCODE job hands over: its frame and the codec fields of the context (R63). -/
structure EncodeResult where
  dtx : DtxState
  encY : Int
  payload : List Byte
  deriving DecidableEq, Repr

/-- The result of an ENCODE job from its rate, input and what it read at its start (R59 to R63). The frame's kind is
the last frame kind of the DTX state. -/
def encodeJob (r : Rate) (input : List Int) (rd : CodecRead) : EncodeResult :=
  let m := activity (input.drop 1)
  let d := decideKind m rd.vadLevel rd.hangover rd.dtx ⟨rd.hangCount, rd.lastKind, rd.sidAge⟩
  match d.lastKind with
  | .speech =>
    let e := encodeSpeech r rd.encY input
    ⟨d, e.2, e.1⟩
  | .sid => ⟨d, 0, [BitVec.ofNat 8 (sidLevel m)]⟩
  | .noData | .endCall => ⟨d, rd.encY, []⟩

/-! ## Comfort noise -/

/-- One step of the noise generator (R69 steps 1 and 2). -/
def noiseNext (st : BitVec 16) : BitVec 16 :=
  if st.getLsbD 0 then (st >>> 1) ^^^ 0xB400#16 else st >>> 1

/-- The output r of a step, from the state after it (R69 step 3). -/
def noiseOutput (st : BitVec 16) : Int := (st.toNat % 4096 : Nat) - 2048

/-- The generator state after `n` steps. -/
def noiseAfter : Nat → BitVec 16 → BitVec 16
  | 0, st => st
  | n + 1, st => noiseAfter n (noiseNext st)

/-- `n` samples of comfort noise at amplitude A (R70). -/
def noiseSamples (a : Nat) : Nat → BitVec 16 → List Int
  | 0, _ => []
  | n + 1, st => noiseOutput (noiseNext st) * a / 2048 :: noiseSamples a n (noiseNext st)

/-- The amplitude of a NOISE block of this level, 4 where L is absent (R70). -/
def noiseAmplitude (level : Option Nat) : Nat := 64 * level.getD 4 + 32

/-- The seed of a channel's generator (R69). -/
def noiseSeed (ch : Chan) : BitVec 16 := 0xACE1#16 ^^^ BitVec.ofNat 16 ch.val

/-! ## Concealment -/

/-- The attenuation factors F_1 to F_16 (R71). -/
def concealFactors : List Nat := [768, 576, 432, 324, 243, 182, 136, 102, 76, 57, 42, 31, 23, 17, 12, 9]

/-- The j-th concealed block of a last good block (R71). -/
def concealedBlock (j : Nat) (good : List Int) : List Int :=
  good.map fun s => (s * (concealFactors.getD (j - 1) 9 : Nat) + 512) / 1024

end Sys2Proof.Machine
end

