-- ==== Sys2Proof/Machine/Operands.lean ====
section
/-! DEFINITION. The layouts of section 11.7: the codes of named values, numbers in bytes, control messages (R181), the
link frame header (R182), and the answers and notices built from them (R180). -/

namespace Sys2Proof.Machine

/-! ## Numbers in bytes -/

/-- One byte. -/
def byte (n : Nat) : Byte := BitVec.ofNat 8 n

/-- Two bytes, most significant first (R181). -/
def twoBytes (n : Nat) : List Byte := [byte (n / 256), byte n]

/-- The device cycle count in four bytes, most significant first (R181). -/
def fourBytes (n : BitVec 32) : List Byte :=
  [byte (n.toNat / 16777216), byte (n.toNat / 65536), byte (n.toNat / 256), byte n.toNat]

/-- A signed value in two's complement, two bytes (R181). -/
def signedBytes (x : Int) : List Byte := twoBytes (BitVec.ofInt 16 x).toNat

/-- The number in two bytes. -/
def ofTwo (hi lo : Byte) : Nat := 256 * hi.toNat + lo.toNat

/-- The signed number in two bytes (R181). -/
def ofTwoSigned (hi lo : Byte) : Int := (BitVec.ofNat 16 (ofTwo hi lo)).toInt

/-- 0 or 1. -/
def flagByte (b : Bool) : Byte := if b then 1 else 0

/-- The code of a value whose defining table lists "yes, no": numbered from 0 in that order (R181, log entry 9). -/
def yesNoByte (yes : Bool) : Byte := if yes then 0 else 1

/-! ## Codes of named values (R181) -/

/-- Header code of a rate; 0 for none (R182). -/
def rateCode : Option Rate → Nat
  | none => 0
  | some .l32 => 1
  | some .l24 => 2
  | some .l16 => 3

/-- The rate of a header code; absent for 0 (R182). -/
def rateOfCode : Nat → Option Rate
  | 1 => some .l32
  | 2 => some .l24
  | 3 => some .l16
  | _ => none

def Mode.code : Mode → Nat
  | .setup => 0
  | .service => 1
  | .drain => 2

def SyncState.code : SyncState → Nat
  | .locked => 0
  | .holdover => 1
  | .lost => 2

def LinkState.code : LinkState → Nat
  | .down => 0
  | .up => 1
  | .paused => 2

def LoadState.code : LoadState → Nat
  | .normal => 0
  | .overloaded => 1

/-- FREE is 0 in the order of R2, so ALIGNING is 1. -/
def CallState.code : CallState → Nat
  | .aligning => 1
  | .active => 2
  | .faulted => 3
  | .closing => 4

def PlayoutState.code : PlayoutState → Nat
  | .waiting => 0
  | .playing => 1

def OutputMode.code : OutputMode → Nat
  | .decoded => 0
  | .concealed => 1
  | .noise => 2
  | .muted => 3
  | .idle => 4

def Recognised.code : Recognised → Nat
  | .none => 0
  | .reported => 1
  | .retrying => 2
  | .latched => 3

def FaultClass.code : FaultClass → Nat
  | .off => 0
  | .report => 1
  | .retry => 2
  | .latched => 3

def FaultEvent.code : FaultEvent → Nat
  | .raised => 0
  | .escalated => 1
  | .cleared => 2

def LineCause.code : LineCause → Nat
  | .parity => 0
  | .framing => 1
  | .gap => 2
  | .count => 3

def OutDn.code : OutDn → Nat
  | .idle => 0
  | .noise => 1
  | .hold => 2

def OutUp.code : OutUp → Nat
  | .noData => 0
  | .sid => 1
  | .silent => 2

/-- The mask of a RATE_SET: bit 0 L32, bit 1 L24, bit 2 L16 (R181). -/
def RateSet.mask (rs : RateSet) : Nat := rs.l32.toNat + 2 * rs.l24.toNat + 4 * rs.l16.toNat

/-- The result codes (R181). -/
inductive Result where
  | ok
  | unknownOrder
  | length
  | range
  | mode
  | channelBusy
  | notOpen
  | tagInUse
  | slotInUse
  | slotReserved
  | protectedProfile
  | load
  | stillPresent
  deriving DecidableEq, Repr

def Result.code : Result → Nat
  | .ok => 0x00
  | .unknownOrder => 0x01
  | .length => 0x02
  | .range => 0x03
  | .mode => 0x04
  | .channelBusy => 0x05
  | .notOpen => 0x06
  | .tagInUse => 0x07
  | .slotInUse => 0x08
  | .slotReserved => 0x09
  | .protectedProfile => 0x0A
  | .load => 0x0B
  | .stillPresent => 0x0C

/-! ## Values read from order bodies -/

def modeOfCode : Nat → Option Mode
  | 0 => some .setup
  | 1 => some .service
  | 2 => some .drain
  | _ => none

def speedOfCode : Nat → Option LineSpeed
  | 0 => some .b9600
  | 1 => some .b19200
  | 2 => some .b38400
  | 3 => some .b57600
  | 4 => some .b115200
  | _ => none

def parityOfCode : Nat → Option LineParity
  | 0 => some .none
  | 1 => some .even
  | 2 => some .odd
  | _ => none

def styleOfCode : Nat → Option HistoryStyle
  | 0 => some .wrap
  | 1 => some .keepFirst
  | 2 => some .off
  | _ => none

def classOfCode : Nat → Option FaultClass
  | 0 => some .off
  | 1 => some .report
  | 2 => some .retry
  | 3 => some .latched
  | _ => none

def outDnOfCode : Nat → Option OutDn
  | 0 => some .idle
  | 1 => some .noise
  | 2 => some .hold
  | _ => none

def outUpOfCode : Nat → Option OutUp
  | 0 => some .noData
  | 1 => some .sid
  | 2 => some .silent
  | _ => none

/-- The enable value of SET HIGHWAY: yes is 0, no is 1, by the order of R28's table (R181, log entry 9). -/
def enableOfCode : Nat → Option Bool
  | 0 => some true
  | 1 => some false
  | _ => none

def lawOfCode : Nat → Option Law
  | 0 => some .aLaw
  | 1 => some .muLaw
  | _ => none

/-! ## Control messages (R181) -/

/-- The bytes of a control message: marker, count, kind, tag, body. -/
def Message.bytes (m : Message) : List Byte := 0xC5#8 :: byte (m.body.length + 2) :: m.kind :: m.tag :: m.body

/-- The answer to an order: its kind plus 0x80 modulo 256, its tag, the result code and what follows it (R176). -/
def answerTo (o : Message) (r : Result) (more : List Byte) : Message := ⟨o.kind + 0x80#8, o.tag, byte r.code :: more⟩

/-- The 16 counters, two bytes each, in the order of R18 (R180). -/
def Stats.bytes (st : Stats) : List Byte :=
  [st.framesOut, st.framesIn, st.late, st.duplicate, st.tooEarly, st.resyncs, st.missing, st.concealed, st.encMiss,
    st.decMiss, st.egressOverruns, st.satUp, st.satDn, st.adjustsApplied, st.requestsSent,
    st.discardedInFault].flatMap twoBytes

/-- A history record in seven bytes (R180). -/
def HistoryRecord.bytes (r : HistoryRecord) : List Byte :=
  fourBytes r.cycle ++ [byte r.chan.val, byte r.kind.index.val, byte (16 * r.cls.code + r.event.code)]

/-- The 39 values of a profile and its marker, in the order of the table of R163 (R166, R180, log entry 8). -/
def Profile.bytes (p : Profile) : List Byte :=
  (([(p.rateSet.mask : Int), rateCode (some p.initialRate), p.gainUp, p.gainDn, p.startDepth, p.marginLo, p.marginHi,
    p.dtx.toNat, p.vadLevel, p.hangover, p.concealLimit, p.outDn.code, p.outUp.code, p.starveCycles, p.lateLimit,
    p.overloadLimit, p.driftLimit, p.missLimit]
    ++ p.cls.toList.map (fun c => (c.code : Int))
    ++ p.retryTime.toList.map Int.ofNat
    ++ p.retryLimit.toList.map Int.ofNat).flatMap signedBytes) ++ [flagByte p.defaulted]

/-- The values of a QUERY answer, in the order of R19 (R180, R181). R45 says of the gain index that it is what QUERY sees,
yet neither R19 nor R180 lists a gain among QUERY's values: the model answers what those two list, without the gains (log
entry 26). -/
def Context.queryBytes (c : Context) : List Byte :=
  [byte c.state.code] ++ twoBytes c.tag.val ++ [byte c.highway.val, byte c.timeslot.val, byte c.profile.val]
    ++ [byte c.phiUp.val, byte c.phiDn.val, byte c.blockLen, byte c.nUp]
    ++ [byte (rateCode (some c.upRate)), c.upSeq, flagByte c.adjust.isSome]
    ++ [byte c.playout.code, yesNoByte c.started, byte c.queue.length, flagByte c.expected.isSome, c.expected.getD 0]
    ++ [byte c.output.code, byte c.concealIndex]
    ++ [flagByte c.request.isSome, byte ((c.request.map fun r => r.token.val).getD 0)]
    ++ c.faults.toList.map (fun f => byte f.state.code)
    ++ c.stats.bytes

/-- The notice class, in the order of the table of R178: FAULT, CALL, LINK, SYNC, CONFIG, LOAD, LINE. -/
def NoticeBody.cls : NoticeBody → Fin 7
  | .faultRaised _ _ | .faultEscalated _ _ | .faultCleared _ _ => 0
  | .callActive _ | .callFarEnd _ => 1
  | .linkState _ => 2
  | .syncState _ => 3
  | .configDefaulted _ | .configMode _ => 4
  | .loadState _ => 5
  | .lineError _ | .lineOverrun => 6

/-- The message kind of a notice, 0x40..0x4B in the order of the table of R178 (R181). -/
def NoticeBody.code : NoticeBody → Nat
  | .faultRaised _ _ => 0x40
  | .faultEscalated _ _ => 0x41
  | .faultCleared _ _ => 0x42
  | .callActive _ => 0x43
  | .callFarEnd _ => 0x44
  | .linkState _ => 0x45
  | .syncState _ => 0x46
  | .configDefaulted _ => 0x47
  | .configMode _ => 0x48
  | .loadState _ => 0x49
  | .lineError _ => 0x4A
  | .lineOverrun => 0x4B

/-- What a notice's kind carries (R178). -/
def NoticeBody.carries : NoticeBody → List Byte
  | .faultRaised ch k | .faultEscalated ch k | .faultCleared ch k => [byte ch.val, byte k.index.val]
  | .callActive ch | .callFarEnd ch | .configDefaulted ch => [byte ch.val]
  | .linkState st => [byte st.code]
  | .syncState st => [byte st.code]
  | .configMode m => [byte m.code]
  | .loadState st => [byte st.code]
  | .lineError cause => [byte cause.code]
  | .lineOverrun => []

/-- The control message of a notice: tag 0; level, device cycle count and what its kind carries (R181). -/
def Notice.message (n : Notice) : Message :=
  ⟨byte n.body.code, 0, byte n.level :: (fourBytes n.cycle ++ n.body.carries)⟩

/-- The message now on the control line, if one is being sent (R177). -/
def ControlLine.onLine (ctl : ControlLine) : Option Message :=
  match ctl.tx with
  | .idle => none
  | .answer => ctl.answer
  | .notice n => some n.message

/-- The bits of the message now on the control line, each byte framed at the line's parity (R173, R177, R181). -/
def ControlLine.lineBits (p : LineParity) (ctl : ControlLine) : List Bool :=
  match ctl.onLine with
  | none => []
  | some m => m.bytes.flatMap (byteFrame p)

/-! ## Link frames (R182) -/

/-- The code of a frame kind. -/
def FrameKind.code : FrameKind → Nat
  | .speech => 1
  | .sid => 2
  | .noData => 3
  | .endCall => 4

/-- The frame kind of a code; absent for any other (R137 step 2). -/
def kindOfCode : Nat → Option FrameKind
  | 1 => some .speech
  | 2 => some .sid
  | 3 => some .noData
  | 4 => some .endCall
  | _ => none

/-- The payload length a kind and rate call for (R137 step 4, R143); a SPEECH frame without a rate has none. -/
def payloadLength : FrameKind → Option Rate → Option Nat
  | .speech, some r => some r.payloadBytes
  | .speech, none => none
  | .sid, _ => some 1
  | .noData, _ => some 0
  | .endCall, _ => some 0

/-- The fields of a received header, as bits, and the payload (R182). -/
structure Received where
  kind : Nat
  tag : Tag
  seq : Byte
  rate : Nat
  rateReq : Nat
  token : Token
  echo : Token
  dir : Nat
  amount : Nat
  length : Nat
  payload : List Byte
  deriving DecidableEq, Repr

/-- The header and payload of a unit of at least 7 bytes (R182). -/
def parseFrame : List Byte → Option Received
  | b0 :: b1 :: b2 :: b3 :: b4 :: b5 :: b6 :: payload => some
      { kind := b0.toNat / 16
        tag := Fin.ofNat 4096 (b0.toNat % 16 * 256 + b1.toNat)
        seq := b2
        rate := b3.toNat / 64
        rateReq := b3.toNat / 16 % 4
        token := Fin.ofNat 4 (b3.toNat / 4)
        echo := Fin.ofNat 4 b3.toNat
        dir := b4.toNat
        amount := b5.toNat
        length := b6.toNat
        payload := payload }
  | _ => none

/-- The direction code of an uplink frame's timing request (R103, R143). -/
def requestDirCode : Option TimingRequest → Nat
  | none => 0
  | some r => match r.dir with
    | .sendEarlier => 1
    | .sendLater => 2

/-- The bytes of an uplink frame (R143, R182). -/
def Frame.bytes (f : Frame) : List Byte :=
  [byte (16 * f.kind.code + f.tag.val / 256), byte f.tag.val, f.seq,
    byte (64 * rateCode f.rate + 16 * rateCode f.rateReq + 4 * ((f.request.map fun r => r.token.val).getD 0) + f.echo.val),
    byte (requestDirCode f.request), byte ((f.request.map fun r => r.k).getD 0), byte f.payload.length] ++ f.payload

/-- The transmission time of a frame, (7 + p + 12) × 80 ns (R141). -/
def Frame.timeNs (f : Frame) : Nat := (7 + f.payload.length + 12) * 80

end Sys2Proof.Machine
end

