-- ==== Sys2Proof/Machine/Flags.lean ====
section
/-! DEFINITION. The control line's transmit side: the pending flags, the notice queue, the answer slot and the
transmitter that chooses between them (R177, R178, R179), as functions on the control line alone. -/

namespace Sys2Proof.Machine

/-- When the transmitter is idle it takes an answer waiting in the slot first, otherwise the head notice, which leaves
the queue (R177). -/
def ControlLine.choose (ctl : ControlLine) : ControlLine :=
  match ctl.tx with
  | .idle =>
    match ctl.answer, ctl.notices with
    | some _, _ => { ctl with tx := .answer }
    | none, n :: rest => { ctl with tx := .notice n, notices := rest }
    | none, [] => ctl
  | .answer => ctl
  | .notice _ => ctl

/-- Placing an answer in the answer slot (R176, R177). -/
def ControlLine.placeAnswer (m : Message) (ctl : ControlLine) : ControlLine := { ctl with answer := some m }.choose

/-- LINK, SYNC and LOAD notices are state notices (R26, R131, R134, R178 step 3). -/
def NoticeBody.isState : NoticeBody → Bool
  | .linkState _ | .syncState _ | .loadState _ => true
  | .faultRaised _ _ | .faultEscalated _ _ | .faultCleared _ _ | .callActive _ | .callFarEnd _ | .configDefaulted _
  | .configMode _ | .lineError _ | .lineOverrun => false

/-- The lowest level in a queue of notices, 3 where it is empty. -/
def lowestLevel (q : List Notice) : Nat := (q.map (·.level)).foldl min 3

/-- The queue without the oldest notice of the lowest level: notices of one level stand oldest first (R178 step 4). -/
def dropOldestLowest (q : List Notice) : List Notice := q.eraseP fun n => n.level = lowestLevel q

/-- A notice's place: after every notice of higher or equal level, before every notice of lower level (R178 step 5). -/
def insertNotice (n : Notice) : List Notice → List Notice
  | [] => [n]
  | m :: rest => if n.level ≤ m.level then m :: insertNotice n rest else n :: m :: rest

/-- The notice queue after a notice has been generated (R178 steps 2 to 5). -/
def enqueueNotice (n : Notice) (q : List Notice) : List Notice :=
  if n.level = 0 then q
  else
    let q1 := if n.body.isState then q.filter fun m => m.body.cls ≠ n.body.cls else q
    if q1.length < 32 then insertNotice n q1
    else if n.level ≤ lowestLevel q1 then q1
    else insertNotice n (dropOldestLowest q1)

/-- The pending flag of a notice class (R179). -/
def flagBit (cls : Fin 7) : BitVec 8 := 1#8 <<< cls.val

/-- The control line after a notice has been generated: its flag set, the notice queued or dropped, and the
transmitter choosing if it is idle (R177, R178). -/
def ControlLine.generate (n : Notice) (ctl : ControlLine) : ControlLine :=
  { ctl with flags := ctl.flags ||| flagBit n.body.cls, notices := enqueueNotice n ctl.notices }.choose

/-- The end of a message on the control line: an answer frees the slot and an accepted SET LINE's settings are done
with; the transmitter then chooses again (R173, R177). -/
def ControlLine.endMessage (ctl : ControlLine) : ControlLine :=
  match ctl.tx with
  | .idle => ctl
  | .answer => { ctl with tx := .idle, answer := none, newLine := none }.choose
  | .notice _ => { ctl with tx := .idle }.choose

end Sys2Proof.Machine
end

