-- ==== Sys2Proof/Machine/Ops.lean ====
section
/-! DEFINITION. The operations the commands share: channel contexts, notices and the fault history, supervision
(recognition, recovery), the egress slots and the transmitter, the job queue and dispatch, and misses. -/

namespace Sys2Proof.Machine

/-! ## Channel contexts -/

/-- The context of a channel changed by a function; a FREE channel is left as it is (R3). -/
def State.modCtx (ch : Chan) (f : Context → Context) (s : State) : State :=
  match s.chan[ch] with
  | none => s
  | some c => { s with chan := s.chan.set ch (some (f c)) }

/-- The channels that are not FREE, ascending (R2). -/
def State.openChannels (s : State) : List Chan :=
  (s.chan.toList.zip allChannels).filterMap fun p => if p.1.isSome then some p.2 else none

/-- An operation made for each channel that is not FREE, in ascending order of the channel numbers. R157 gives that order
to CLEAR FAULTS; for what a change of the sync or link state makes in many channels at one instant (R26, R135, R151, R160)
no rule gives an order, and this one is the model's choice (log entry 24). -/
def State.forEachOpen (f : Chan → State → State) (s : State) : State :=
  s.openChannels.foldl (fun st ch => f ch st) s

/-- The profile a context names, read live (R163). -/
def State.profileOf (s : State) (c : Context) : Profile := s.profiles[c.profile]

/-- The law of a context's highway (R39). -/
def State.lawOf (s : State) (c : Context) : Law := s.hw.records[c.highway].law

/-- The fault record of a kind (R145). -/
def Context.fault (c : Context) (k : FaultKind) : FaultRecord := c.faults[k.index]

/-- The context with the fault record of a kind replaced. -/
def Context.setFault (c : Context) (k : FaultKind) (r : FaultRecord) : Context :=
  { c with faults := c.faults.set k.index r }

/-- The statistics of a context changed by a function. -/
def Context.count (f : Stats → Stats) (c : Context) : Context := { c with stats := f c.stats }

/-- The context with the condition of a kind set present or absent. -/
def Context.setCondition (k : FaultKind) (present : Bool) (c : Context) : Context :=
  c.setFault k { c.fault k with present := present }

/-- Whether the kind holds its channel out of service: RETRYING or LATCHED (R156). -/
def FaultRecord.holds (r : FaultRecord) : Bool :=
  match r.state with
  | .retrying | .latched => true
  | .none | .reported => false

/-- Whether some kind of the channel is RETRYING or LATCHED (R156). -/
def Context.heldByFault (c : Context) : Bool := allKinds.any fun k => (c.fault k).holds

/-! ## Notices and the fault history -/

/-- A notice is generated (R178). -/
def State.notify (b : NoticeBody) (s : State) : State :=
  { s with ctl := s.ctl.generate ⟨s.settings.levels[b.cls], s.hw.cycle, b⟩ }

/-- The fault history after a record has been offered under a style (R161). -/
def storeRecord (style : HistoryStyle) (r : HistoryRecord) (h : List HistoryRecord) : List HistoryRecord :=
  match style with
  | .wrap => if h.length < 32 then h ++ [r] else h.drop (h.length - 31) ++ [r]
  | .keepFirst => if h.length < 32 then h ++ [r] else h
  | .off => h

/-- A record is offered to the fault history (R161). -/
def State.offerRecord (ch : Chan) (k : FaultKind) (cls : FaultClass) (ev : FaultEvent) (s : State) : State :=
  { s with history := storeRecord s.settings.historyStyle ⟨s.hw.cycle, ch, k, cls, ev⟩ s.history }

/-- The class a captured class names in a history record (R161). -/
def Captured.cls : Captured → FaultClass
  | .none => .off
  | .report => .report
  | .retry _ => .retry
  | .latched => .latched

/-! ## Jobs of a channel -/

/-- The jobs of a channel leave the queue, and those running are marked (R13 step 2, R16, R124). -/
def EngineBlock.dropChannel (ch : Chan) (eng : EngineBlock) : EngineBlock :=
  { eng with
    queue := eng.queue.filter fun j => j.chan ≠ ch
    engines := eng.engines.map fun r => r.map fun x => if x.job.chan = ch then { x with marked := true } else x }

/-- Whether the queue or an engine holds a job of this channel and kind (R91). -/
def EngineBlock.holdsJob (ch : Chan) (kind : JobKind) (eng : EngineBlock) : Bool :=
  (eng.queue.any fun j => j.chan = ch && j.kind = kind)
    || eng.engines.toList.any fun r => r.any fun x => x.job.chan = ch && x.job.kind = kind

/-! ## Supervision -/

/-- An outcome of DECODE not yet used whose job or result is lost because the channel became FAULTED (R33); R66 withdraws
a result already kept. -/
def BoundaryOutcome.withdraw : BoundaryOutcome → BoundaryOutcome
  | .decode .pending => .decode .withdrawn
  | .decode (.ready _) => .decode .withdrawn
  | .decode .missed => .decode .missed
  | .decode .withdrawn => .decode .withdrawn
  | .sid => .sid
  | .noData => .noData
  | .missing => .missing
  | .endFrame => .endFrame
  | .none => .none

/-- A channel in ALIGNING or ACTIVE becomes FAULTED: its waiting jobs removed, its running ones marked, its fault frame
count set to 0 (R16, R144, R151). In any other state nothing changes. -/
def State.enterFaulted (ch : Chan) (s : State) : State :=
  match s.chan[ch] with
  | none => s
  | some c =>
    match c.state with
    | .aligning | .active =>
      { s with
        chan := s.chan.set ch (some { c with state := .faulted, outcome := c.outcome.withdraw })
        eng := s.eng.dropChannel ch
        faultFrames := s.faultFrames.set ch 0 }
    | .faulted | .closing => s

/-- The fault record of a kind recognised with a class, with the retry time and limit read at that instant; class OFF
leaves it as it stands (R150). -/
def FaultRecord.recognised (cls : FaultClass) (time limit : Nat) (r : FaultRecord) : FaultRecord :=
  match cls with
  | .off => r
  | .report => { r with state := .reported, captured := .report }
  | .retry => { r with state := .retrying, captured := .retry limit, retryCount := 0, remaining := time }
  | .latched => { r with state := .latched, captured := .latched }

/-- A condition found present while its kind is NONE: the class is read and acted on (R150, R151). -/
def State.recognise (ch : Chan) (k : FaultKind) (s : State) : State :=
  match s.chan[ch] with
  | none => s
  | some c =>
    let p := s.profileOf c
    let cls := p.cls[k.index]
    let r := (c.fault k).recognised cls p.retryTime[k.index] p.retryLimit[k.index]
    let raised := ((s.modCtx ch fun x => x.setFault k r).notify (.faultRaised ch k)).offerRecord ch k cls .raised
    match cls with
    | .off => s
    | .report => raised
    | .retry | .latched => raised.enterFaulted ch

/-- The condition of a kind is found present (R146, R150, R152). A CLOSING channel is left as it stands. -/
def State.findPresent (ch : Chan) (k : FaultKind) (s : State) : State :=
  match s.chan[ch] with
  | none => s
  | some c =>
    if c.state = .closing then s
    else
      let s1 := s.modCtx ch (Context.setCondition k true)
      if (c.fault k).state = .none then s1.recognise ch k else s1

/-- The condition of a kind is set absent (R146). A CLOSING channel is left as it stands. -/
def State.setAbsent (ch : Chan) (k : FaultKind) (s : State) : State :=
  s.modCtx ch fun c => if c.state = .closing then c else c.setCondition k false

/-- A condition judged: found present, or set absent (R146). -/
def State.judge (ch : Chan) (k : FaultKind) (present : Bool) (s : State) : State :=
  if present then s.findPresent ch k else s.setAbsent ch k

/-- A kind returns to NONE, with its CLEARED notice and record (R153, R158). -/
def State.clearKind (ch : Chan) (k : FaultKind) (s : State) : State :=
  match s.chan[ch] with
  | none => s
  | some c =>
    let r := c.fault k
    ((s.modCtx ch fun x => x.setFault k { r with state := .none, retryCount := 0, captured := .none }).notify
      (.faultCleared ch k)).offerRecord ch k r.captured.cls .cleared

/-- The context of a channel that recovers (R17). -/
def Context.recovered (c : Context) : Context :=
  { c with
    state := if c.started then .active else .aligning
    encY := 0
    decY := 0
    hangCount := 0
    lastKind := .speech
    sidAge := 0 }

/-- A FAULTED channel none of whose kinds is RETRYING or LATCHED recovers (R17, R156). -/
def State.recoverIfClear (ch : Chan) (s : State) : State :=
  match s.chan[ch] with
  | none => s
  | some c =>
    if c.state = .faulted && !c.heldByFault then
      let s1 := s.modCtx ch Context.recovered
      if c.started then s1.notify (.callActive ch) else s1
    else s

/-! ## The link port's egress -/

/-- A transmission starts when the link is UP, the transmitter idle and the queue not empty (R141). -/
def LinkPort.start (lp : LinkPort) : LinkPort :=
  match lp.state, lp.sending, lp.txQueue with
  | .up, none, ch :: _ =>
    match lp.slots[ch] with
    | some sl => { lp with sending := some sl.frame.timeNs }
    | none => lp
  | _, _, _ => lp

/-- A transmission in progress is ended with the abort delimiter (R142). -/
def LinkPort.abandon (lp : LinkPort) : LinkPort :=
  match lp.sending with
  | none => lp
  | some _ => { lp with sending := none, lastDelimiter := .abortDelimiter }

/-- A placement over an untransmitted frame of the current call counts an egress overrun (R140). -/
def LinkPort.overruns (ch : Chan) (lp : LinkPort) : Bool :=
  match lp.slots[ch] with
  | some sl => !sl.leftOver
  | none => false

/-- A frame placed in a channel's egress slot (R140, R142): appended to the transmit queue if the slot was empty, the
transmission of a replaced frame abandoned, and a transmission started where one may. -/
def LinkPort.place (ch : Chan) (f : Frame) (lp : LinkPort) : LinkPort :=
  match lp.slots[ch] with
  | none => { lp with slots := lp.slots.set ch (some ⟨f, false⟩), txQueue := lp.txQueue ++ [ch] }.start
  | some _ =>
    let lp1 := if lp.txQueue.head? = some ch then lp.abandon else lp
    { lp1 with slots := lp1.slots.set ch (some ⟨f, false⟩) }.start

/-- The uplink frame of a placement, with the header read from the context at this instant (R115, R143). -/
def State.fillFrame (s : State) (c : Context) (kind : FrameKind) (rate : Option Rate) (payload : List Byte) : Frame where
  kind := kind
  tag := c.tag
  seq := c.upSeq
  rate := rate
  rateReq := (s.profileOf c).rateSet.highest
  request := c.request
  echo := c.upEcho
  payload := payload

/-- The context after a placement: the sequence advances, frames_out, the drift count and egress_overruns are counted
(R104, R140, R143). -/
def Context.afterPlacement (overrun : Bool) (c : Context) : Context :=
  { c with
    upSeq := c.upSeq + 1
    drift := if c.request.isSome then upTo 100 c.drift else c.drift
    stats := { c.stats with
      framesOut := bump c.stats.framesOut
      egressOverruns := if overrun then bump c.stats.egressOverruns else c.stats.egressOverruns } }

/-- An uplink frame is placed in the channel's egress slot (R103, R104, R140, R143). -/
def State.placeFrame (ch : Chan) (kind : FrameKind) (rate : Option Rate) (payload : List Byte) (s : State) : State :=
  match s.chan[ch] with
  | none => s
  | some c =>
    let c1 := c.afterPlacement (s.link.overruns ch)
    let s1 := { s with
      chan := s.chan.set ch (some c1)
      link := s.link.place ch (s.fillFrame c kind rate payload) }
    if c.request.isSome && (s.profileOf c).driftLimit ≤ c1.drift then s1.findPresent ch .drift else s1

/-! ## Misses -/

/-- A miss raises the window miss count, and may make the load state OVERLOADED (R130, R131). -/
def State.loadMiss (s : State) : State :=
  let misses := s.eng.load.misses + 1
  if s.eng.load.state = .normal && s.settings.loadLimit ≤ misses then
    { s with eng := { s.eng with load := { s.eng.load with state := .overloaded, misses := misses } } }.notify
      (.loadState .overloaded)
  else { s with eng := { s.eng with load := { s.eng.load with misses := misses } } }

/-- The channel's counters after a miss (R125 to R127). -/
def Context.missed (kind : JobKind) (c : Context) : Context :=
  { c with
    missWin := upTo 50 c.missWin
    stats := match kind with
      | .encode => { c.stats with encMiss := bump c.stats.encMiss }
      | .decode => { c.stats with decMiss := bump c.stats.decMiss } }

/-- A miss is counted once in each of its three places (R127). -/
def State.countMiss (ch : Chan) (kind : JobKind) (s : State) : State := (s.modCtx ch (Context.missed kind)).loadMiss

/-- An outcome of DECODE whose job missed (R33, R126). -/
def BoundaryOutcome.miss : BoundaryOutcome → BoundaryOutcome
  | .decode .pending => .decode .missed
  | .decode (.ready b) => .decode (.ready b)
  | .decode .missed => .decode .missed
  | .decode .withdrawn => .decode .withdrawn
  | .sid => .sid
  | .noData => .noData
  | .missing => .missing
  | .endFrame => .endFrame
  | .none => .none

/-- A job is discarded as a miss (R125, R126). An ENCODE miss places its NO_DATA frame, with a DRIFT finding that the
placement may bring, before the miss is counted: no rule orders the two, and this is the model's choice (log entry 27). -/
def State.missJob (ch : Chan) (kind : JobKind) (s : State) : State :=
  match kind with
  | .encode => (s.placeFrame ch .noData none []).countMiss ch .encode
  | .decode => (s.modCtx ch fun c => { c with outcome := c.outcome.miss }).countMiss ch .decode

/-! ## The job queue and dispatch -/

/-- The duration of a job in ns (R118). -/
def jobDurationNs : JobKind → Rate → Nat
  | .encode, .l32 => 120000
  | .encode, .l24 => 110000
  | .encode, .l16 => 100000
  | .decode, .l32 => 70000
  | .decode, .l24 => 65000
  | .decode, .l16 => 60000

/-- The duration of this job (R118). -/
def Job.durationNs (j : Job) : Nat := jobDurationNs j.kind j.rate

/-- ENCODE before DECODE (R119). -/
def jobRank : JobKind → Nat
  | .encode => 0
  | .decode => 1

/-- The order of the job queue: deadline, then channel, then kind (R119). -/
def Job.before (a b : Job) : Bool :=
  a.deadline < b.deadline
    || (a.deadline = b.deadline && (a.chan < b.chan || (a.chan = b.chan && jobRank a.kind < jobRank b.kind)))

/-- A job inserted at its place (R119). -/
def insertJob (j : Job) : List Job → List Job
  | [] => [j]
  | k :: rest => if j.before k then j :: k :: rest else k :: insertJob j rest

/-- The lowest-numbered idle engine (R122 step 1). -/
def EngineBlock.idleEngine (eng : EngineBlock) : Option EngineNo :=
  [(0 : EngineNo), 1, 2, 3].find? fun e => eng.engines[e].isNone

/-- What a job reads at its start from the channel and its profile (R59, R62, R64). A waiting job's channel is not FREE
(R13, R20); for a FREE one the values are those of OPEN and are never used (R124). -/
def State.codecRead (s : State) (ch : Chan) : CodecRead :=
  match s.chan[ch] with
  | some c => ⟨c.encY, c.hangCount, c.lastKind, c.sidAge, c.dtx, c.hangover, (s.profileOf c).vadLevel, c.decY⟩
  | none => ⟨0, 0, .speech, 0, false, 0, 0, 0⟩

/-- An engine starts a job (R121, R122 step 3). -/
def State.startJob (e : EngineNo) (j : Job) (now : Nat) (s : State) : State :=
  { s with eng := { s.eng with
      engines := s.eng.engines.set e (some ⟨j, now, now + j.durationNs, false, s.codecRead j.chan⟩) } }

/-- Dispatch at an instant, over at most `n` heads of the queue (R122). -/
def State.dispatchLoop (now : Nat) : Nat → State → State
  | 0, s => s
  | n + 1, s =>
    match s.eng.queue, s.eng.idleEngine with
    | j :: rest, some e =>
      let s1 := { s with eng := { s.eng with queue := rest } }
      if now + j.durationNs ≤ j.deadline then (s1.startJob e j now).dispatchLoop now n
      else (s1.missJob j.chan j.kind).dispatchLoop now n
    | _, _ => s

/-- Dispatch is attempted at an instant until no engine is idle or the queue is empty (R122). -/
def State.dispatch (now : Nat) (s : State) : State := s.dispatchLoop now s.eng.queue.length

/-- A job is submitted at an instant: inserted at its place, and dispatch attempted (R119, R122). -/
def State.submit (j : Job) (now : Nat) (s : State) : State :=
  { s with eng := { s.eng with queue := insertJob j s.eng.queue } }.dispatch now

/-- A waiting job of this channel and kind whose deadline has come by an instant (R120). -/
def State.deadlineDue (now : Nat) (ch : Chan) (kind : JobKind) (s : State) : Bool :=
  s.eng.queue.any fun j => j.chan = ch && j.kind = kind && j.deadline ≤ now

/-- The queue without the jobs of a channel and kind. -/
def EngineBlock.removeWaiting (ch : Chan) (kind : JobKind) (eng : EngineBlock) : EngineBlock :=
  { eng with queue := eng.queue.filter fun j => !(j.chan = ch && j.kind = kind) }

/-! ## Answers -/

/-- An answer is placed in the answer slot (R176). -/
def State.answer (o : Message) (r : Result) (more : List Byte) (s : State) : State :=
  { s with ctl := s.ctl.placeAnswer (answerTo o r more) }

end Sys2Proof.Machine
end

