-- ==== Sys2Proof/Machine/Boundaries.lean ====
section
/-! DEFINITION. The events of a channel's cycle: the sample write and the code sent, the uplink boundary (R10 to R14),
the downlink boundary with its supervision (R89 to R94, R147 to R156), and the output block start (R33 to R37). -/

namespace Sys2Proof.Machine

/-! ## The sample path -/

/-- The context after a received code has been written into the ring (R31, R47, R49). -/
def Context.writeSample (law : Law) (code : Byte) (c : Context) : Context :=
  let x := expand law code
  let clamped := gainClamps c.gainUp x
  { c with
    ring := (gainSample c.gainUp x :: c.ring).take 200
    nUp := c.nUp + 1
    satUpWin := if clamped then upTo 8000 c.satUpWin else c.satUpWin
    stats := if clamped then { c.stats with satUp := bump c.stats.satUp } else c.stats }

/-- The index i of the output block sample that belongs to the period C = c (R37). -/
def Context.blockIndex (c : Context) (now : Phase) : Nat := phaseDist (phaseAdd c.phiDn 32) now

/-- Whether a block is played as idle code, without gain or compression (R37, R44). -/
def OutputMode.isIdleCode : OutputMode → Bool
  | .idle | .muted => true
  | .decoded | .concealed | .noise => false

/-- The gain down held at a period start is the one the code of that period uses (R37, R48). -/
def Context.latchGain (c : Context) : Context := { c with gainNow := c.gainDn }

/-- The code of this period, at the gain down held at its start (R37, R48). -/
def Context.codeNow (law : Law) (now : Phase) (c : Context) : Byte :=
  if c.output.isIdleCode then idleCode law
  else compress law (gainSample c.gainNow (c.block.getD (c.blockIndex now) 0))

/-- The context after the code of this period has been computed: a clamp is counted (R37, R49). -/
def Context.countSent (now : Phase) (c : Context) : Context :=
  if !c.output.isIdleCode && gainClamps c.gainNow (c.block.getD (c.blockIndex now) 0) then
    { c with satDnWin := upTo 8000 c.satDnWin, stats := { c.stats with satDn := bump c.stats.satDn } }
  else c

/-- The channel's code of this period is computed, and driven unless the sync state is LOST (R37). -/
def State.sendCode (ch : Chan) (s : State) : State :=
  match s.chan[ch] with
  | none => s
  | some c =>
    let driven := if s.hw.sync = .lost then none else some (c.codeNow (s.lawOf c) s.hw.c)
    { s with
      chan := s.chan.set ch (some (c.countSent s.hw.c))
      hw := { s.hw with driven := s.hw.driven.set (slotNo c.highway c.timeslot) driven } }

/-! ## The uplink boundary -/

/-- Step 1 of R10: the uplink rate settled against RATE_SET (R113). -/
def Context.settleRate (rs : RateSet) (c : Context) : Context :=
  { c with upRate := rs.settle (c.rateReq.getD c.upRate), rateReq := none }

/-- The encoder input: the 161 most recent ring samples, oldest first (R11). -/
def Context.encoderInput (c : Context) : List Int := (c.ring.take 161).reverse

/-- An ENCODE job made at a boundary at this instant (R11, R117). -/
def Context.encodeJobAt (ch : Chan) (now : Nat) (c : Context) : Job :=
  ⟨ch, .encode, c.upRate, now + Config.deadlineNs, .samples c.encoderInput⟩

/-- The fault uplink frame OUT_UP and the fault frame count call for: its kind and payload, or nothing (R144). -/
def faultFrame (out : OutUp) (count : Nat) : Option (FrameKind × List Byte) :=
  match out with
  | .noData => some (.noData, [])
  | .sid => if count = 0 then some (.sid, [0]) else some (.noData, [])
  | .silent => none

/-- Step 2 of R10 in FAULTED (R12, R144). The frame is filled from the context as every uplink frame (R143). -/
def State.faultUplink (ch : Chan) (s : State) : State :=
  match s.chan[ch] with
  | none => s
  | some c =>
    let placed := match faultFrame (s.profileOf c).outUp s.faultFrames[ch] with
      | some (kind, payload) => s.placeFrame ch kind none payload
      | none => s
    { placed with faultFrames := placed.faultFrames.set ch ((s.faultFrames[ch] + 1) % 8) }

/-- A phase bucket count less one (R129). -/
def lowerBucket (b : Bucket) (v : Vector Nat 16) : Vector Nat 16 := v.set b (v[b] - 1)

/-- A phase bucket count raised by n (R128, R129). -/
def raiseBucket (b : Bucket) (n : Nat) (v : Vector Nat 16) : Vector Nat 16 := v.set b (v[b] + n)

/-- One count moved between two buckets; unchanged when they are the same (R129). -/
def moveBucket (a b : Bucket) (v : Vector Nat 16) : Vector Nat 16 :=
  if a = b then v else raiseBucket b 1 (lowerBucket a v)

/-- The events without those of a channel's cycle. -/
def withoutCycle (ch : Chan) (ds : List Due) : List Due :=
  ds.filter fun d => d ≠ .uplink ch && d ≠ .downlink ch && d ≠ .blockStart ch

/-- The channel and everything it holds are released (R13 steps 2 to 5). -/
def State.release (ch : Chan) (c : Context) (s : State) : State :=
  let eng := s.eng.dropChannel ch
  let slot := slotNo c.highway c.timeslot
  { s with
    chan := s.chan.set ch none
    tagMap := s.tagMap.set c.tag none
    hw := { s.hw with
      bindings := s.hw.bindings.set slot none
      driven := s.hw.driven.set slot none }
    eng := { eng with buckets := lowerBucket (bucketOf c.phiUp) (lowerBucket (bucketOf c.phiDn) eng.buckets) }
    due := withoutCycle ch s.due
    ahead := withoutCycle ch s.ahead }

/-- The mode becomes SETUP when the last open channel has become FREE in DRAIN (R22). -/
def State.drainToSetup (s : State) : State :=
  if s.mode = .drain && s.openChannels.isEmpty then { s with mode := .setup }.notify (.configMode .setup) else s

/-- The answer to a held CLOSE of this channel, with the counters of the closed call (R13, R176). -/
def State.answerClose (ch : Chan) (st : Stats) (s : State) : State :=
  match s.ctl.proc with
  | .idle => s
  | .holding tag held =>
    if held = ch then
      { s with ctl := { s.ctl with proc := .idle } }.answer ⟨0x0A, tag, []⟩ .ok st.bytes
    else s

/-- Step 2 of R10 in CLOSING: the close completes (R13, R14, R22). -/
def State.completeClose (ch : Chan) (s : State) : State :=
  let s1 := s.placeFrame ch .endCall none []
  match s1.chan[ch] with
  | none => s1
  | some c => ((s1.release ch c).answerClose ch c.stats).drainToSetup

/-- Step 2 of R10. -/
def State.uplinkByState (ch : Chan) (s : State) : State :=
  match s.chan[ch] with
  | none => s
  | some c =>
    match c.state with
    | .aligning | .active => s.submit (c.encodeJobAt ch s.hw.periodStart) s.hw.periodStart
    | .faulted => s.faultUplink ch
    | .closing => s.completeClose ch

/-- The context after a pending adjust has been applied, or the next length of 160 settled (R108). Every adjust changes the
block that begins at this boundary, after a RETARD block too; what R110 says of an ADVANCE made there is read as a remark on
that block's length (log entry 34). -/
def Context.applyAdjust (c : Context) : Context :=
  match c.adjust with
  | none => { c with blockLen := 160 }
  | some a =>
    let c1 := { c with
      adjust := none
      upEcho := a.token
      stats := { c.stats with adjustsApplied := bump c.stats.adjustsApplied } }
    match a.dir with
    | .advance => { c1 with phiUp := phaseSub c.phiUp a.k, blockLen := 160 - a.k }
    | .retard => { c1 with phiUp := phaseAdd c.phiUp a.k, blockLen := 160 + a.k }

/-- Steps 3 and 4 of R10. -/
def State.uplinkFinish (ch : Chan) (s : State) : State :=
  match s.chan[ch] with
  | none => s
  | some c =>
    let c1 := c.applyAdjust
    { s with
      chan := s.chan.set ch (some { c1 with nUp := 0 })
      eng := { s.eng with buckets := moveBucket (bucketOf c.phiUp) (bucketOf c1.phiUp) s.eng.buckets } }

/-- The frame in a channel's egress slot takes this echo. -/
def LinkPort.setEcho (ch : Chan) (echo : Token) (lp : LinkPort) : LinkPort :=
  { lp with slots := lp.slots.set ch ((lp.slots[ch]).map fun sl => { sl with frame := { sl.frame with echo := echo } }) }

/-- The fault frame that this boundary has placed, if OUT_UP calls for one, takes the up_echo that step 3 has set (R107). It
was placed and filled at this same instant and has not waited in its slot, so R143's last sentence is read as speaking of
other frames (log entry 31). -/
def State.echoFaultFrame (ch : Chan) (s : State) : State :=
  match s.chan[ch] with
  | none => s
  | some c => if (s.profileOf c).outUp = .silent then s else { s with link := s.link.setEcho ch c.upEcho }

/-- The uplink boundary event of a channel (R10, R107). -/
def State.uplinkBoundary (ch : Chan) (s : State) : State :=
  match s.chan[ch] with
  | none => s
  | some c =>
    let done :=
      (({ s with chan := s.chan.set ch (some (c.settleRate (s.profileOf c).rateSet)) }).uplinkByState ch).uplinkFinish ch
    if c.state = .faulted then done.echoFaultFrame ch else done

/-! ## The downlink boundary -/

/-- The DECODE job of a frame taken at a boundary at this instant (R91, R117). -/
def decodeJobAt (ch : Chan) (rate : Rate) (payload : List Byte) (now : Nat) : Job :=
  ⟨ch, .decode, rate, now + Config.deadlineNs, .payload payload⟩

/-- A SPEECH head served (R91). Every SPEECH entry has a rate (R77). -/
def State.serveSpeech (ch : Chan) (rate : Rate) (payload : List Byte) (s : State) : State :=
  match s.chan[ch] with
  | none => s
  | some c =>
    match c.state with
    | .faulted =>
      s.modCtx ch fun x => { x with
        outcome := .none
        stats := { x.stats with discardedInFault := bump x.stats.discardedInFault } }
    | .aligning | .active | .closing =>
      if s.eng.holdsJob ch .decode then
        (s.modCtx ch fun x => { x with outcome := .decode .missed }).countMiss ch .decode
      else
        (s.modCtx ch fun x => { x with outcome := .decode .pending }).submit
          (decodeJobAt ch rate payload s.hw.periodStart) s.hw.periodStart

/-- The level a SID's payload byte sets, clamped to 63 (R68). -/
def sidPayloadLevel (payload : List Byte) : Nat := min 63 ((payload.map BitVec.toNat).headD 0)

/-- A head removed at a downlink boundary is served according to its kind (R91 to R93). -/
def State.serve (ch : Chan) (e : QueueEntry) (s : State) : State :=
  match e.kind with
  | .speech => s.serveSpeech ch (e.rate.getD .l16) e.payload
  | .sid => s.modCtx ch fun x => { x with noiseLevel := some (sidPayloadLevel e.payload), decY := 0, outcome := .sid }
  | .noData => s.modCtx ch fun x => { x with outcome := .noData }
  | .endCall => (s.modCtx ch fun x => { x with outcome := .endFrame }).notify (.callFarEnd ch)

/-- Step 2 of R89: playout starts when the queue holds at least the start depth (R15, R90). -/
def State.startPlayout (ch : Chan) (s : State) : State :=
  match s.chan[ch] with
  | none => s
  | some c =>
    if c.playout = .waiting && c.startDepth ≤ c.queue.length then
      let s1 := s.modCtx ch fun x => { x with
        playout := .playing
        started := true
        state := if x.state = .aligning then .active else x.state }
      if c.state = .aligning then s1.notify (.callActive ch) else s1
    else s

/-- Steps 3 and 4 of R89: the head served, or missing counted, and expected advanced; or, in WAITING, the outcome set
(R90 to R94). -/
def State.playHead (ch : Chan) (s : State) : State :=
  match s.chan[ch] with
  | none => s
  | some c =>
    match c.playout with
    | .waiting => s.modCtx ch fun x => { x with outcome := if x.state = .active then .missing else .none }
    | .playing =>
      let miss := s.modCtx ch fun x => { x with
        expected := x.expected.map (· + 1)
        outcome := .missing
        stats := { x.stats with missing := bump x.stats.missing } }
      match c.queue with
      | [] => miss
      | e :: rest =>
        if c.expected = some e.seq then
          (s.modCtx ch fun x => { x with queue := rest, expected := x.expected.map (· + 1) }).serve ch e
        else miss

/-- Step 1 of R89: the starvation count rises, and STARVATION is judged (R96, R146, R149). -/
def State.raiseStarvation (ch : Chan) (s : State) : State :=
  match s.chan[ch] with
  | none => s
  | some c =>
    let n := upTo 255 c.starvation
    (s.modCtx ch fun x => { x with starvation := n }).judge ch .starvation ((s.profileOf c).starveCycles ≤ n)

/-- The window position after one more downlink boundary (R147). -/
def nextWindow : Option Nat → Nat
  | none => 0
  | some p => if p + 1 = 50 then 0 else p + 1

/-- The kinds of a channel that are RETRYING. -/
def Context.retryingKinds (c : Context) : List FaultKind := allKinds.filter fun k => (c.fault k).state = .retrying

/-- The timers of some kinds lowered by one, where the kind is RETRYING (R153). -/
def Context.lowerTimers (ks : List FaultKind) (c : Context) : Context :=
  ks.foldl (fun x k =>
    if (x.fault k).state = .retrying then x.setFault k { x.fault k with remaining := (x.fault k).remaining - 1 } else x) c

/-- The kinds of a channel that have expired: RETRYING with no cycles remaining (R153). -/
def Context.expiredKinds (c : Context) : List FaultKind :=
  allKinds.filter fun k => (c.fault k).state = .retrying && (c.fault k).remaining = 0

/-- The work of R149 after the playout work: the window position moves and the timers set before this boundary fall.
The window end and the expiries it brings about are left as the rest of this event. -/
def State.moveWindow (ch : Chan) (before : List FaultKind) (s : State) : State :=
  match s.chan[ch] with
  | none => s
  | some c =>
    let c1 := ({ c with window := some (nextWindow c.window) }).lowerTimers before
    { s with
      chan := s.chan.set ch (some c1)
      rest := s.rest ++ (if c.window = some 49 then [.supervisionWindow ch] else [])
        ++ (if c1.expiredKinds.isEmpty then [] else [.retryExpiry ch]) }

/-- The downlink boundary of a channel, up to the window end and the expiries (R89, R149). -/
def State.downlinkBoundary (ch : Chan) (s : State) : State :=
  match s.chan[ch] with
  | none => s
  | some c =>
    match c.state with
    | .closing => s.modCtx ch fun x => { x with outcome := .none }
    | .aligning | .active | .faulted =>
      (((s.raiseStarvation ch).startPlayout ch).playHead ch).moveWindow ch c.retryingKinds

/-- The end of a supervision window: OVERLOAD and DEADLINE judged, the three counts reset (R148). R148 lists the two
judgements without an order, and R151 takes findings of one instant in either; that OVERLOAD is judged first is the
model's choice (log entry 32). -/
def State.supervisionWindowEnd (ch : Chan) (s : State) : State :=
  match s.chan[ch] with
  | none => s
  | some c =>
    let p := s.profileOf c
    ((s.judge ch .overload (p.overloadLimit ≤ c.satUpWin + c.satDnWin)).judge ch .deadline
      (p.missLimit ≤ c.missWin)).modCtx ch fun x => { x with satUpWin := 0, satDnWin := 0, missWin := 0 }

/-- The retry limit captured for a kind (R145). -/
def Captured.limit : Captured → Nat
  | .retry n => n
  | .none | .report | .latched => 0

/-- An expired kind whose condition is present restarts its timer, or escalates to LATCHED (R154). -/
def FaultRecord.afterFailedRetry (time : Nat) (r : FaultRecord) : FaultRecord :=
  let n := upTo 15 r.retryCount
  if 0 < r.captured.limit && r.captured.limit ≤ n then { r with state := .latched, retryCount := n }
  else { r with retryCount := n, remaining := time }

/-- One expired kind acted on (R153, R154). -/
def State.expireKind (ch : Chan) (s : State) (k : FaultKind) : State :=
  match s.chan[ch] with
  | none => s
  | some c =>
    let r := c.fault k
    if r.present then
      let r1 := r.afterFailedRetry (s.profileOf c).retryTime[k.index]
      let s1 := s.modCtx ch fun x => x.setFault k r1
      if r1.state = .latched then (s1.notify (.faultEscalated ch k)).offerRecord ch k r.captured.cls .escalated else s1
    else s.clearKind ch k

/-- The expired kinds acted on in the order of R146, and a recovery made once after the last (R153, R156). -/
def State.retryExpiry (ch : Chan) (s : State) : State :=
  match s.chan[ch] with
  | none => s
  | some c => (c.expiredKinds.foldl (State.expireKind ch) s).recoverIfClear ch

/-! ## The output block start -/

/-- The conceal step (R35, R73): CONCEALED with j one higher and its block, whose last sample the decoder takes
(R71, R72); or MUTED, with j unchanged. A conceal step from MUTED stays MUTED. -/
def Context.concealStep (c : Context) : Context :=
  let j := c.concealIndex + 1
  if c.output = .muted || c.concealLimit < j then { c with output := .muted }
  else
    let b := concealedBlock j c.lastGood
    { c with output := .concealed, concealIndex := j, block := b, decY := b.getLastD 0 }

/-- A conceal step counted in concealed when it gives CONCEALED(j) (R35). -/
def Context.countedConcealStep (c : Context) : Context :=
  let c1 := c.concealStep
  if c1.output = .concealed then { c1 with stats := { c1.stats with concealed := bump c1.stats.concealed } } else c1

/-- A NOISE block at level L, or 4 if L is absent (R70). -/
def Context.noiseBlock (c : Context) : Context :=
  { c with
    output := .noise
    block := noiseSamples (noiseAmplitude c.noiseLevel) 160 c.noiseGen
    noiseGen := noiseAfter 160 c.noiseGen }

/-- The block of a missing or NO_DATA frame in ACTIVE (R35). -/
def Context.missingBlock (c : Context) : Context :=
  match c.output with
  | .noise => c.noiseBlock
  | .idle => c
  | .muted => c
  | .decoded | .concealed => c.countedConcealStep

/-- The block of an ACTIVE channel, by the boundary outcome (R35). -/
def Context.activeBlock (c : Context) : Context :=
  match c.outcome with
  | .decode (.ready b) => { c with output := .decoded, block := b, lastGood := b, concealIndex := 0 }
  | .decode .missed | .decode .pending => c.concealStep
  | .decode .withdrawn => c.missingBlock
  | .sid => c.noiseBlock
  | .noData | .missing | .none => c.missingBlock
  | .endFrame => { c with output := .idle }

/-- The block of a FAULTED channel, by OUT_DN (R34). -/
def Context.faultedBlock (out : OutDn) (c : Context) : Context :=
  match out with
  | .idle => { c with output := .idle }
  | .noise => c.noiseBlock
  | .hold => c.concealStep

/-- The choice of an output block; the boundary outcome is consumed (R33, R34, R35). -/
def Context.chooseBlock (out : OutDn) (c : Context) : Context :=
  let c1 := match c.state with
    | .aligning | .closing => { c with output := .idle }
    | .faulted => c.faultedBlock out
    | .active => c.activeBlock
  { c1 with outcome := .none }

/-- A DECODE job still waiting, or not yet completed, at its block start is marked missed and counted once (R36). -/
def State.missAtBlockStart (ch : Chan) (s : State) : State :=
  match s.chan[ch] with
  | none => s
  | some c =>
    if c.outcome = .decode .pending then
      ({ s with eng := s.eng.removeWaiting ch .decode }).missJob ch .decode
    else s

/-- The block of an output block start is chosen (R34 to R36). -/
def State.chooseOutput (ch : Chan) (s : State) : State :=
  let s1 := s.missAtBlockStart ch
  s1.modCtx ch fun c => c.chooseBlock (s1.profileOf c).outDn

/-- The output block start of a channel: the block is chosen, and its first sample sent in this period
(R34 to R37). -/
def State.outputBlockStart (ch : Chan) (s : State) : State := (s.chooseOutput ch).sendCode ch

end Sys2Proof.Machine
end

