-- ==== Sys2Proof/Machine/Timeline.lean ====
section
/-! DEFINITION. What the part does by itself between the commands: the rest of the event just taken, the events a
period start has raised, job deadlines and completions (R124, R120), the load window (R130, R131), and the work of a
period start (R24, R26, R27, R31, R32, R37). -/

namespace Sys2Proof.Machine

/-! ## Alignment: the end of an observation window -/

/-- The profile's marker set by a judgement of consistency, with a CONFIG notice if it was clear (R167). -/
def State.markDefaulted (ch : Chan) (p : ProfileNo) (s : State) : State :=
  if s.profiles[p].defaulted then s
  else { s with profiles := s.profiles.set p { s.profiles[p] with defaulted := true } }.notify (.configDefaulted ch)

/-- The band of a profile: MARGIN_LO and MARGIN_HI, or 60 and 300 where LO is not below HI (R102, R167). -/
def Profile.band (p : Profile) : Nat × Nat := if p.marginLo < p.marginHi then (p.marginLo, p.marginHi) else (60, 300)

/-- The request a minimum margin calls for, if any: direction and amount (R102). -/
def requestFor (lo hi : Nat) (m : Int) : Option (RequestDir × Nat) :=
  let target : Int := ((lo : Int) + hi) / 2
  if m < lo then some (.sendEarlier, (clamp 1 80 (target - m)).toNat)
  else if (hi : Int) < m then some (.sendLater, (clamp 1 80 (m - target)).toNat)
  else none

/-- The token after this one: 1, 2, 3, 1, … (R102). -/
def nextToken (t : Token) : Token := Fin.ofNat 4 (t.val % 3 + 1)

/-- A request made outstanding (R102). -/
def Context.makeRequest (dir : RequestDir) (k : Nat) (c : Context) : Context :=
  { c with
    request := some ⟨dir, k, nextToken c.lastToken⟩
    lastToken := nextToken c.lastToken
    stats := { c.stats with requestsSent := bump c.stats.requestsSent } }

/-- The observation window restarts (R102, R105). -/
def Context.restartWindow (c : Context) : Context := { c with winCount := 0, winMin := none, winLate := 0 }

/-- The band compared with the minimum margin, where no request is outstanding (R102, R167). -/
def State.compareBand (ch : Chan) (s : State) : State :=
  match s.chan[ch] with
  | none => s
  | some c =>
    if c.request.isSome then s
    else
      let p := s.profileOf c
      let s1 := if p.marginLo < p.marginHi then s else s.markDefaulted ch c.profile
      match c.winMin with
      | none => s1
      | some m =>
        match requestFor p.band.1 p.band.2 m with
        | none => s1
        | some (dir, k) => s1.modCtx ch (Context.makeRequest dir k)

/-- The end of an observation window: LATE judged, the band compared, the window restarted (R101, R102). -/
def State.observationWindowEnd (ch : Chan) (s : State) : State :=
  match s.chan[ch] with
  | none => s
  | some c =>
    ((s.judge ch .late ((s.profileOf c).lateLimit ≤ c.winLate)).compareBand ch).modCtx ch Context.restartWindow

/-! ## The rest of the event just taken -/

/-- One step of the rest of an event. -/
def State.takeRest (s : State) : Rest → State
  | .supervisionWindow ch => s.supervisionWindowEnd ch
  | .retryExpiry ch => s.retryExpiry ch
  | .observationWindow ch => s.observationWindowEnd ch

/-- The rest of the event just taken is done before anything else (R99, R149, log entry 3). -/
def State.finish (s : State) : State := s.rest.foldl State.takeRest { s with rest := [] }

/-- A row that is the rest of an event: what stands before it in the rest is done, then it; what stands after it is
left. Where it is not in the rest, it does not occur. -/
def State.takeRestUpTo (r : Rest) (s : State) : State :=
  if r ∈ s.rest then
    let done := s.rest.takeWhile (· ≠ r)
    { (done.foldl State.takeRest { s with rest := [] }).takeRest r with rest := s.rest.drop (done.length + 1) }
  else s.finish

/-! ## The load window -/

/-- The end of a load window (R130, R131). -/
def State.loadWindowEnd (s : State) : State :=
  let recovers := s.eng.load.state = .overloaded && s.eng.load.misses = 0
  let s1 := { s with eng := { s.eng with load :=
    { state := if recovers then .normal else s.eng.load.state, misses := 0, wraps := 50 } } }
  if recovers then s1.notify (.loadState .normal) else s1

/-! ## Events raised at a period start -/

/-- An event raised at this period start is taken, with the rest of it left to do. -/
def State.takeEvent (d : Due) (s : State) : State :=
  let s1 := { s with due := s.due.filter fun x => x ≠ d }
  match d with
  | .uplink ch => s1.uplinkBoundary ch
  | .downlink ch => s1.downlinkBoundary ch
  | .blockStart ch => s1.outputBlockStart ch
  | .loadWindowEnd => s1.loadWindowEnd

/-- An event is taken if the period start has raised it and it has not been taken. -/
def State.takeIfDue (d : Due) (s : State) : State := if d ∈ s.due then s.takeEvent d else s

/-- Whether a downlink boundary of the channel falls at the start of the period C = now (R32). -/
def Context.downlinkAt (now : Phase) (c : Context) : Bool := now = c.phiDn

/-- Whether an output block start of the channel falls at the start of the period C = now (R32). -/
def Context.blockStartAt (now : Phase) (c : Context) : Bool := now = phaseAdd c.phiDn 32

/-- Whether the next period start brings this event of a channel's cycle (R7, R31, R32). The load window end meets no state
of the period start's own work and is commanded after it. -/
def State.comesNext (d : Due) (s : State) : Bool :=
  match d with
  | .uplink ch => (s.chan[ch]).any fun c => !c.fresh && c.nUp + 1 = c.blockLen
  | .downlink ch => (s.chan[ch]).any (Context.downlinkAt (s.hw.c + 1))
  | .blockStart ch => (s.chan[ch]).any (Context.blockStartAt (s.hw.c + 1))
  | .loadWindowEnd => false

/-- An event commanded ahead of the period start that brings it is noted, once, to be taken there first (log entry 23). -/
def State.noteAhead (d : Due) (s : State) : State :=
  if s.comesNext d && !s.ahead.contains d then { s with ahead := s.ahead ++ [d] } else s

/-- The command of an event of a channel's cycle: taken if it has been raised, noted if the next period start brings it
(log entries 2 and 23). -/
def State.commandEvent (d : Due) (s : State) : State := if d ∈ s.due then s.takeEvent d else s.noteAhead d

/-- A job still waiting at its deadline, which has come by an instant, is removed and discarded as a miss (R120). -/
def State.takeDeadline (now : Nat) (ch : Chan) (kind : JobKind) (s : State) : State :=
  if s.deadlineDue now ch kind then ({ s with eng := s.eng.removeWaiting ch kind }).missJob ch kind else s

/-- Every job whose deadline has come by an instant. -/
def State.takeDeadlines (now : Nat) (s : State) : State :=
  (s.eng.queue.filter fun j => j.deadline ≤ now).foldl (fun st j => st.takeDeadline now j.chan j.kind) s

/-- Every event of this period start not yet taken, and every deadline that has come by it (log entry 2). -/
def State.takeAllDue (s : State) : State :=
  (s.due.foldl (fun st d => (st.takeIfDue d).finish) s).takeDeadlines s.hw.periodStart

/-! ## Completions -/

/-- The frame kind and payload of an ENCODE result kept, and the context's codec fields (R63). -/
def Context.takeEncode (r : EncodeResult) (c : Context) : Context :=
  { c with encY := r.encY, hangCount := r.dtx.hangCount, lastKind := r.dtx.lastKind, sidAge := r.dtx.sidAge }

/-- An ENCODE result kept: the codec fields written and the frame placed (R63, R124). A SID sent leaves the channel's comfort
noise level L alone: R68's last sentence is read so, since it gives the encoder's SID level and the decoder's L to different
directions (log entry 33). -/
def State.keepEncode (ch : Chan) (rate : Rate) (r : EncodeResult) (s : State) : State :=
  (s.modCtx ch (Context.takeEncode r)).placeFrame ch r.dtx.lastKind
    (if r.dtx.lastKind = .speech then some rate else none) r.payload

/-- A DECODE result kept: the decoder y_prev written and the block marked ready (R66, R124). -/
def Context.takeDecode (block : List Int) (c : Context) : Context :=
  { c with decY := block.getLastD c.decY, outcome := .decode (.ready block) }

/-- The result of a completed job, kept or discarded (R124). The block start named by a DECODE job's deadline has been
taken exactly when the outcome is no longer a pending DECODE. -/
def State.takeResult (r : Running) (s : State) : State :=
  if r.marked then s
  else
    match s.chan[r.job.chan] with
    | none => s
    | some c =>
      match r.job.kind, r.job.input with
      | .encode, .samples xs =>
        if c.state = .faulted then s else s.keepEncode r.job.chan r.job.rate (encodeJob r.job.rate xs r.read)
      | .decode, .payload bs =>
        if c.outcome = .decode .pending then
          s.modCtx r.job.chan (Context.takeDecode (decodeSpeech r.job.rate r.read.decY bs))
        else s
      | .encode, .payload _ | .decode, .samples _ => s

/-- An engine's job completes: the engine becomes idle, the result is taken, and dispatch is attempted at the
completion instant, or at the period start where the instant fell beyond a short period (R27, R124). -/
def State.completeJob (e : EngineNo) (s : State) : State :=
  match s.eng.engines[e] with
  | none => s
  | some r =>
    (({ s with eng := { s.eng with engines := s.eng.engines.set e none } }).takeResult r).dispatch
      (max r.done s.hw.periodStart)

/-- The running engine that completes first, the lowest-numbered among equals, if it completes before an instant. -/
def EngineBlock.firstBefore (t : Nat) (eng : EngineBlock) : Option EngineNo :=
  ([(0 : EngineNo), 1, 2, 3].foldl (fun (best : Option (EngineNo × Nat)) e =>
    match eng.engines[e] with
    | none => best
    | some r =>
      match best with
      | none => if r.done < t then some (e, r.done) else none
      | some (_, d) => if r.done < d then some (e, r.done) else best) none).map Prod.fst

/-- At most `n` completions before an instant, in the order of their instants. -/
def State.completeBefore (t : Nat) : Nat → State → State
  | 0, s => s
  | n + 1, s =>
    match s.eng.firstBefore t with
    | none => s
    | some e => (s.completeJob e).completeBefore t n

/-- What the part does by itself before an instant t of the period in progress, where it has not been commanded: the
events of the period start, the deadlines, and the completions before t (log entry 2). Four engines and jobs of at
least 60 µs make at most 12 completions in a period. -/
def State.advanceTo (t : Nat) (s : State) : State :=
  if s.hw.periodStart < t then s.takeAllDue.completeBefore t 16 else s

/-- The instant on the device time base at which a period of this measured length ends: at most 125 µs after its
start (R27). -/
def HighwayBlock.endOfPeriod (h : HighwayBlock) (tNs : Nat) : Nat := h.periodStart + min tNs Config.samplePeriodNs

/-- A job that started after this period had ended, but before the next start on the device time base, started at that
next start, and completes its duration after it (R27, R122). One that started as the period ended keeps its start (log entry
37). -/
def Running.settleStart (ended next : Nat) (r : Running) : Running :=
  if ended < r.start && r.start < next then { r with start := next, done := next + r.job.durationNs } else r

/-- The starts of the running jobs settled by the length a period turned out to have (R27, R122). -/
def EngineBlock.settleStarts (ended next : Nat) (eng : EngineBlock) : EngineBlock :=
  { eng with engines := eng.engines.map fun r => r.map (Running.settleStart ended next) }

/-- What is left to do in the period in progress when it ends, this long after its start, as measured (log entry 2). In a
period longer than 125 µs the instant 125 µs after its start is reached within the period: the deadlines and completions
of that instant are taken too, before the next period start (R27). In a shorter one or one of exactly 125 µs they fall at
the next period start, and a sender may take them on either side of it. A completion taken before a pulse that shows its
instant to lie beyond the period's length has been taken at the next period start, before that start's own work, so what it
started starts there (log entry 5). An instant that equals a short period's length is not beyond it: a completion taken there
before the pulse keeps its start, and one left to the part falls at the next period start, as the sender chooses (log entry
37). -/
def State.endPeriod (tNs : Nat) (s : State) : State :=
  let s1 := s.advanceTo (s.hw.endOfPeriod tNs)
  if Config.samplePeriodNs < tNs then
    let last := s.hw.periodStart + Config.samplePeriodNs
    (s1.takeDeadlines last).completeBefore (last + 1) 16
  else
    { s1 with eng := s1.eng.settleStarts (s.hw.endOfPeriod tNs) (s.hw.periodStart + Config.samplePeriodNs) }

/-! ## The period start -/

/-- The two runs after a period start, good or missing (R24). -/
def HighwayBlock.countRuns (good : Bool) (h : HighwayBlock) : HighwayBlock :=
  if good then { h with goodRun := upTo 80 h.goodRun, missingRun := 0 }
  else { h with goodRun := 0, missingRun := upTo 80 h.missingRun }

/-- The sync state judged from the two runs (R24). -/
def nextSync (st : SyncState) (goodRun missingRun : Nat) : SyncState :=
  match st with
  | .locked => if 4 ≤ missingRun then .holdover else .locked
  | .holdover => if 16 ≤ goodRun then .locked else if 80 ≤ missingRun then .lost else .holdover
  | .lost => if 16 ≤ goodRun then .locked else .lost

/-- C advances, the device cycle count rises at the wrap, the period start moves on by 125 µs, and the local timer
expects the next pulse 125 µs later (R23, R27). No timeslot is driven until its code is computed (R37). -/
def HighwayBlock.advance (h : HighwayBlock) : HighwayBlock :=
  { h with
    c := h.c + 1
    cycle := if h.c.val = 159 then h.cycle + 1 else h.cycle
    periodStart := h.periodStart + Config.samplePeriodNs
    expected := Config.samplePeriodNs
    driven := Vector.replicate 256 none }

/-- The wrap of C lowers the wraps remaining, and the one that brings it to 0 raises the load window end (R130). -/
def State.countWrap (s : State) : State :=
  if s.hw.c.val = 0 then
    let w := s.eng.load.wraps - 1
    { s with
      eng := { s.eng with load := { s.eng.load with wraps := w } }
      due := if w = 0 then s.due ++ [.loadWindowEnd] else s.due }
  else s

/-- The sync state is judged; a change generates a SYNC notice, and entering or leaving LOST sets the HIGHWAY condition
of every channel that is not FREE (R24, R26, R146). That the SYNC notice is generated before the FAULT notices of the
findings, and that the findings are made in ascending order of the channel numbers, are the model's choices: R26 orders
neither (log entry 24). -/
def State.judgeSync (good : Bool) (s : State) : State :=
  let h := s.hw.countRuns good
  let st := nextSync h.sync h.goodRun h.missingRun
  let s1 := { s with hw := { h with sync := st } }
  if st = h.sync then s1
  else
    let s2 := s1.notify (.syncState st)
    if st = .lost then s2.forEachOpen fun ch x => x.findPresent ch .highway
    else if h.sync = .lost then s2.forEachOpen fun ch x => x.setAbsent ch .highway
    else s2

/-- The code taken for a channel: the idle code if the sync was LOST during the period just ended (R31 step 1). -/
def receivedCode (wasLost : Bool) (law : Law) (slot : SlotNo) (codes : HighwayCodes) : Byte :=
  if wasLost then idleCode law else codes[slot]

/-- The sample of the period just ended is written into a channel's ring; a channel opened in that period gets none
(R7, R31). A write that fills the block raises the uplink boundary. -/
def State.writeSample (wasLost : Bool) (codes : HighwayCodes) (ch : Chan) (s : State) : State :=
  match s.chan[ch] with
  | none => s
  | some c =>
    if c.fresh then s.modCtx ch fun x => { x with fresh := false }
    else
      let c1 := c.writeSample (s.lawOf c) (receivedCode wasLost (s.lawOf c) (slotNo c.highway c.timeslot) codes)
      { s with
        chan := s.chan.set ch (some c1)
        due := if c1.nUp = c1.blockLen then s.due ++ [.uplink ch] else s.due }

/-- The downlink boundary and the output block start that this period raises for a channel (R32), but for those taken
already, ahead of the period start's own work. -/
def State.raiseEvents (ch : Chan) (s : State) : State :=
  match s.chan[ch] with
  | none => s
  | some c =>
    { s with due := s.due
        ++ (if c.downlinkAt s.hw.c && !s.ahead.contains (.downlink ch) then [.downlink ch] else [])
        ++ (if c.blockStartAt s.hw.c && !s.ahead.contains (.blockStart ch) then [.blockStart ch] else []) }

/-- An event commanded ahead is taken whole, with its window end and expiries, before the period start's own work. An
uplink boundary follows the sample write that raises it (R31); a block start chooses its block, whose code is sent with
the codes of the period (R37). -/
def State.takeAhead (wasLost : Bool) (codes : HighwayCodes) (s : State) (d : Due) : State :=
  match d with
  | .uplink ch => ((s.writeSample wasLost codes ch).takeIfDue d).finish
  | .downlink ch => if (s.chan[ch]).any (Context.downlinkAt s.hw.c) then (s.takeEvent d).finish else s
  | .blockStart ch =>
    if (s.chan[ch]).any (Context.blockStartAt s.hw.c) then
      { s with due := s.due.filter fun x => x ≠ d }.chooseOutput ch
    else s
  | .loadWindowEnd => s

/-- The next period begins: the clock moves, and the events commanded ahead are taken in the order commanded (R27, log
entry 23). -/
def State.beginPeriod (codes : HighwayCodes) (s : State) : State :=
  s.ahead.foldl (State.takeAhead (s.hw.sync = .lost) codes) { s with hw := s.hw.advance }

/-- Whether a channel's code of this period is computed at the period start: not where its output block starts now,
which computes it (R34), nor where its close completes now, which leaves the timeslot undriven (R13, R37). -/
def State.sendsNow (ch : Chan) (s : State) : Bool :=
  match s.chan[ch] with
  | none => false
  | some c => !(s.due.contains (.blockStart ch)) && !(c.state = .closing && s.due.contains (.uplink ch))

/-- A channel's work at a period start (R31, R32, R37, R48). Its sample has been written already where its uplink boundary
was commanded ahead. -/
def State.channelPeriod (wasLost : Bool) (codes : HighwayCodes) (ch : Chan) (s : State) : State :=
  let s1 := s.modCtx ch Context.latchGain
  let s2 := (if s1.ahead.contains (.uplink ch) then s1 else s1.writeSample wasLost codes ch).raiseEvents ch
  if s2.sendsNow ch then s2.sendCode ch else s2

/-- The start of a sample period, good or missing (R23 to R37). Its own work is the sync judgement with the HIGHWAY findings
or absences it makes, and the sample writes and codes with the clamps they count. The events of the channels' cycles at this
instant come before it where they were commanded ahead, and after it otherwise, so both orders of R50, R148 and R155 are
taken, as the sender chooses (log entry 23). -/
def State.startPeriod (good : Bool) (codes : HighwayCodes) (s : State) : State :=
  let wasLost : Bool := s.hw.sync = .lost
  let s1 := ((s.beginPeriod codes).countWrap.judgeSync good).forEachOpen (State.channelPeriod wasLost codes)
  { s1 with ahead := [] }

end Sys2Proof.Machine
end

