-- ==== Sys2Proof/Machine/Channel.lean ====
section
/-! DEFINITION. The commands of a channel's boundaries and of supervision: UPLINK_BOUNDARY, DOWNLINK_BOUNDARY,
SUPERVISION_WINDOW_END, RETRY_TIMER_EXPIRY and OBSERVATION_WINDOW_END. Each occurs when the rule that raises it has raised
it; a boundary that the next period start raises is noted for it, and otherwise nothing occurs (log entries 2 and 23). -/

namespace Sys2Proof.Machine

/-- UPLINK_BOUNDARY (R10). -/
def execUplinkBoundary (ch : Chan) (s : State) : Host.Outcome State Fault Refusal :=
  .next (s.finish.commandEvent (.uplink ch))

/-- DOWNLINK_BOUNDARY (R89, R149). -/
def execDownlinkBoundary (ch : Chan) (s : State) : Host.Outcome State Fault Refusal :=
  .next (s.finish.commandEvent (.downlink ch))

/-- SUPERVISION_WINDOW_END (R147, R148). -/
def execSupervisionWindowEnd (ch : Chan) (s : State) : Host.Outcome State Fault Refusal :=
  .next (s.takeRestUpTo (.supervisionWindow ch))

/-- RETRY_TIMER_EXPIRY (R153, R154, R156). -/
def execRetryTimerExpiry (ch : Chan) (s : State) : Host.Outcome State Fault Refusal :=
  .next (s.takeRestUpTo (.retryExpiry ch))

/-- OBSERVATION_WINDOW_END (R101, R102). -/
def execObservationWindowEnd (ch : Chan) (s : State) : Host.Outcome State Fault Refusal :=
  .next (s.takeRestUpTo (.observationWindow ch))

end Sys2Proof.Machine
end

