-- ==== Sys2Proof/Machine/Engines.lean ====
section
/-! DEFINITION. The commands of the conversion engines and the load monitor: JOB_COMPLETION, JOB_DEADLINE and
LOAD_WINDOW_END (07_conversion_engines_job_queue_and_load.md). -/

namespace Sys2Proof.Machine

/-- The completion of an engine's job, where its instant falls in the period in progress or at its end; what lies
before that instant is done first (R27, R121, R124). What it dispatches starts at that instant (R122); where a pulse then
ends the period short of it, the end of the period moves those starts to the next period start (log entry 5). -/
def State.takeCompletion (e : EngineNo) (s : State) : State :=
  match s.eng.engines[e] with
  | none => s
  | some r =>
    if r.done ≤ s.hw.periodStart + Config.samplePeriodNs then (s.advanceTo r.done).completeJob e else s

/-- JOB_COMPLETION (R124). -/
def execJobCompletion (e : EngineNo) (s : State) : Host.Outcome State Fault Refusal :=
  .next (s.finish.takeCompletion e)

/-- The deadline of a waiting job, where it has come by the start of the period in progress, or falls at its end, 125 µs
on; what lies before that instant is done first (R27, R120). At an end that is also the next period start the sender
chooses the order: the deadline commanded before the period start is taken before the findings the period start makes, and
one left to it is taken after them (log entry 2). -/
def State.takeJobDeadline (ch : Chan) (kind : JobKind) (s : State) : State :=
  let last := s.hw.periodStart + Config.samplePeriodNs
  if s.deadlineDue s.hw.periodStart ch kind then s.takeDeadline s.hw.periodStart ch kind
  else if s.deadlineDue last ch kind then (s.advanceTo last).takeDeadline last ch kind
  else s

/-- JOB_DEADLINE (R120, R125, R126). -/
def execJobDeadline (ch : Chan) (kind : JobKind) (s : State) : Host.Outcome State Fault Refusal :=
  .next (s.finish.takeJobDeadline ch kind)

/-- LOAD_WINDOW_END (R130, R131). -/
def execLoadWindowEnd (s : State) : Host.Outcome State Fault Refusal :=
  .next (s.finish.takeIfDue .loadWindowEnd)

end Sys2Proof.Machine
end

