-- ==== Sys2Proof/Machine/Highway.lean ====
section
/-! DEFINITION. The commands of the highway interface: HARDWARE_RESET, FSYNC_PULSE, MISSING_PERIOD_START and
OUTPUT_BLOCK_START (02_highways_reference_sync_and_the_sample_cycle.md). -/

namespace Sys2Proof.Machine

/-- A pulse within 15 µs before or after the expected instant is good (R23). -/
def HighwayBlock.goodPulse (h : HighwayBlock) (tNs : Nat) : Bool :=
  h.expected ≤ tNs + Config.goodWindowNs && tNs ≤ h.expected + Config.goodWindowNs

/-- A pulse that is not good re-aims the timer in LOST: the period in progress ends 125 µs after it, and the good run
is 0 (R25). -/
def HighwayBlock.reaim (tNs : Nat) (h : HighwayBlock) : HighwayBlock :=
  { h with expected := tNs + Config.samplePeriodNs, goodRun := 0 }

/-- The link port at hardware reset: its reset values, and on the line the abort delimiter where a transmission was in
progress. R142 says that hardware reset ends it, and 95_what_each_step_holds.md lists its end with the abort delimiter
within HARDWARE_RESET; that the delimiter is seen is the model's reading (log entry 29). -/
def LinkPort.hardwareReset (lp : LinkPort) : LinkPort :=
  { LinkPort.reset with lastDelimiter := if lp.sending.isSome then .abortDelimiter else .none }

/-- HARDWARE_RESET (R21, R38, R133, R142, R171, R172): every piece of state at its hardware-reset value. The waiting
commands and the model's count of free values are no state of the part and stay. -/
def execHardwareReset (start law line : Bool) (s : State) : Host.Outcome State Fault Refusal :=
  .next { State.resetWith start law line with
    link := s.link.hardwareReset
    pending := s.pending
    freeCount := s.freeCount }

/-- A pulse taken (R23, R25). A pulse later than 15 µs past the expected instant meets the period start that R23 makes at
that instant only where the sender has commanded MISSING_PERIOD_START before it. Where it has not, the pulse is taken in
the old period, as not good: that is the model's choice (log entry 25). -/
def State.takePulse (tNs : Nat) (codes : HighwayCodes) (s : State) : State :=
  if s.hw.goodPulse tNs then (s.endPeriod tNs).startPeriod true codes
  else if s.hw.sync = .lost then { s with hw := s.hw.reaim tNs }
  else s

/-- FSYNC_PULSE (R23 to R27, R31, R37). -/
def execFsyncPulse (tNs : Nat) (codes : HighwayCodes) (s : State) : Host.Outcome State Fault Refusal :=
  .next (s.finish.takePulse tNs codes)

/-- MISSING_PERIOD_START: the next period begins at the expected instant, marked missing (R23). -/
def execMissingPeriodStart (codes : HighwayCodes) (s : State) : Host.Outcome State Fault Refusal :=
  let s1 := s.finish
  .next ((s1.endPeriod s1.hw.expected).startPeriod false codes)

/-- OUTPUT_BLOCK_START (R34 to R37). -/
def execOutputBlockStart (ch : Chan) (s : State) : Host.Outcome State Fault Refusal :=
  .next (s.finish.commandEvent (.blockStart ch))

end Sys2Proof.Machine
end

