-- ==== Sys2Proof/Machine/Link.lean ====
section
/-! DEFINITION. The commands of the link port (08_the_link_port.md): reception and ingress validation, routing to the
alignment unit and the playout queue (R79 to R87, R99 to R112), the link state, and the end of a transmission. -/

namespace Sys2Proof.Machine

/-! ## Validation -/

/-- The error counters of the link port (R138). -/
inductive LinkError where
  | length
  | format
  | unknownTag
  | notAccepting
  deriving DecidableEq, Repr

/-- An error counter raised (R138). -/
def LinkPort.countError (lp : LinkPort) : LinkError → LinkPort
  | .length => { lp with errLength := bump lp.errLength }
  | .format => { lp with errFormat := bump lp.errFormat }
  | .unknownTag => { lp with errUnknownTag := bump lp.errUnknownTag }
  | .notAccepting => { lp with errNotAccepting := bump lp.errNotAccepting }

/-- Steps 1 to 4 of R137, on the unit alone: the counter of the first condition that holds, or the fields, the frame
kind and the entry it would make. -/
def checkUnit (bytes : List Byte) : Except LinkError (Received × QueueEntry) :=
  match parseFrame bytes with
  | none => .error .length
  | some r =>
    if r.payload.length ≠ r.length then .error .length
    else
      match kindOfCode r.kind with
      | none => .error .format
      | some kind =>
        let rate := if kind = .speech then rateOfCode r.rate else none
        match payloadLength kind rate with
        | none => .error .format
        | some n => if r.length ≠ n then .error .length else .ok (r, ⟨r.seq, kind, rate, r.payload⟩)

/-- The whole of R137: the counter, or the channel a valid frame is routed to with its fields and entry. -/
def State.checkArrival (bytes : List Byte) (s : State) : Except LinkError (Chan × Received × QueueEntry) :=
  match checkUnit bytes with
  | .error e => .error e
  | .ok (r, entry) =>
    match s.tagMap[r.tag] with
    | none => .error .unknownTag
    | some ch =>
      match s.chan[ch] with
      | none => .error .unknownTag
      | some c => if c.state = .closing then .error .notAccepting else .ok (ch, r, entry)

/-! ## The alignment unit -/

/-- The direction of a downlink frame's timing request (R106). -/
def adjustDirOf : Nat → Option AdjustDir
  | 1 => some .advance
  | 2 => some .retard
  | _ => none

/-- A radio-side adjust request: pending unless ignored (R106, R107). -/
def Context.takeAdjust (r : Received) (c : Context) : Context :=
  match adjustDirOf r.dir with
  | none => c
  | some dir =>
    if r.token = 0 || r.amount = 0 || r.token = c.upEcho || (c.adjust.any fun a => a.token = r.token) then c
    else { c with adjust := some ⟨dir, min 40 r.amount, r.token⟩ }

/-- Whether an echo acknowledges the outstanding request (R105). -/
def Context.acknowledges (r : Received) (c : Context) : Bool :=
  r.echo ≠ 0 && c.request.any fun q => q.token = r.echo

/-- The acknowledgement of the outstanding request (R105). -/
def Context.takeEcho (r : Received) (c : Context) : Context :=
  if c.acknowledges r then
    ({ c with request := none, drift := 0 }.setCondition .drift false).restartWindow
  else c

/-- A rate request (R112). -/
def Context.takeRate (r : Received) (c : Context) : Context :=
  match rateOfCode r.rateReq with
  | none => c
  | some rate => { c with rateReq := some rate }

/-! ## The playout queue -/

/-- The queue's verdict on an arrival (R87). -/
inductive Verdict where
  | first
  | accepted (d : Nat)
  | duplicate
  | tooEarly
  | resync
  | late
  deriving DecidableEq, Repr

/-- The classification of an arrival (R80, R81, R85). -/
def Context.classify (seq : Byte) (c : Context) : Verdict :=
  match c.expected with
  | none => .first
  | some ex =>
    let d := seqDistance ex seq
    if d < 8 then if c.queue.any fun e => e.seq = seq then .duplicate else .accepted d
    else if d < 128 then if c.tooEarlyRun = 2 then .resync else .tooEarly
    else .late

/-- An entry inserted after every entry of smaller distance (R82). -/
def insertEntry (expected : Byte) (e : QueueEntry) : List QueueEntry → List QueueEntry
  | [] => [e]
  | f :: rest =>
    if seqDistance expected e.seq < seqDistance expected f.seq then e :: f :: rest
    else f :: insertEntry expected e rest

/-- The context after an arrival has been inserted: frames_in counted, the starvation count and the too-early run 0,
and STARVATION absent (R80, R82, R85, R96). -/
def Context.tookFrame (c : Context) : Context :=
  { c with
    starvation := 0
    tooEarlyRun := 0
    stats := { c.stats with framesIn := bump c.stats.framesIn } }.setCondition .starvation false

/-- The queue's action on an arrival of a verdict (R80 to R86). -/
def Context.takeEntry (e : QueueEntry) (v : Verdict) (c : Context) : Context :=
  match v with
  | .first => { c with expected := some e.seq, queue := [e] }.tookFrame
  | .accepted _ => { c with queue := insertEntry (c.expected.getD 0) e c.queue }.tookFrame
  | .duplicate => { c with stats := { c.stats with duplicate := bump c.stats.duplicate } }
  | .tooEarly =>
    { c with tooEarlyRun := c.tooEarlyRun + 1, stats := { c.stats with tooEarly := bump c.stats.tooEarly } }
  | .resync =>
    { c with
      expected := some e.seq
      queue := [e]
      playout := .waiting
      stats := { c.stats with tooEarly := bump c.stats.tooEarly, resyncs := bump c.stats.resyncs } }.tookFrame
  | .late => { c with stats := { c.stats with late := bump c.stats.late } }

/-- The margin of an ACCEPTED arrival at distance d in the period C = now (R100). -/
def Context.margin (now : Phase) (d : Nat) (c : Context) : Int :=
  ((if phaseDist now c.phiDn = 0 then 160 else phaseDist now c.phiDn) + 160 * d : Nat)

/-- The margin an arrival counts in the observation window, if it is counted (R99). -/
def Context.countedMargin (now : Phase) (v : Verdict) (c : Context) : Option Int :=
  match v with
  | .accepted d => if c.playout = .playing then some (c.margin now d) else none
  | .late => some (-1)
  | .first | .duplicate | .tooEarly | .resync => none

/-- An arrival counted in the observation window; the 50th returns the count to 0 (R99). -/
def Context.countArrival (m : Int) (c : Context) : Context :=
  { c with
    winCount := if c.winCount + 1 = 50 then 0 else c.winCount + 1
    winMin := some (match c.winMin with
      | none => m
      | some x => min x m)
    winLate := if m = -1 then upTo 50 c.winLate else c.winLate }

/-- The verdict handed to the alignment unit: the arrival counted, and the window's end left as the rest of this
event (R87, R99, R101). -/
def State.countVerdict (ch : Chan) (v : Verdict) (s : State) : State :=
  match s.chan[ch] with
  | none => s
  | some c =>
    match c.countedMargin s.hw.c v with
    | none => s
    | some m =>
      { s with
        chan := s.chan.set ch (some (c.countArrival m))
        rest := if c.winCount + 1 = 50 then s.rest ++ [.observationWindow ch] else s.rest }

/-- A valid frame routed to its channel (R139). -/
def State.route (ch : Chan) (r : Received) (e : QueueEntry) (s : State) : State :=
  match s.chan[ch] with
  | none => s
  | some c =>
    let c1 := ((c.takeAdjust r).takeEcho r).takeRate r
    let v := c1.classify e.seq
    { s with chan := s.chan.set ch (some (c1.takeEntry e v)) }.countVerdict ch v

/-- A unit ends on the line: validated, and counted or routed (R136, R137, R139). -/
def State.takeUnit (bytes : List Byte) (s : State) : State :=
  let s1 := { s with link := { s.link with receiving := false } }
  match s1.checkArrival bytes with
  | .error e => { s1 with link := s1.link.countError e }
  | .ok (ch, r, entry) => s1.route ch r entry

/-- LINK_FRAME_ARRIVAL; in DOWN the line carries nothing (R134, R136). -/
def execLinkFrameArrival (bytes : List Byte) (s : State) : Host.Outcome State Fault Refusal :=
  let s1 := s.finish
  .next (if s1.link.state = .down then s1 else s1.takeUnit bytes)

/-- START_DELIMITER: the reception of a unit begins (R136). -/
def execStartDelimiter (s : State) : Host.Outcome State Fault Refusal :=
  let s1 := s.finish
  .next (if s1.link.state = .down then s1 else { s1 with link := { s1.link with receiving := true } })

/-- The unit being received, if one is, discarded and counted as LENGTH (R136). -/
def LinkPort.cutUnit (lp : LinkPort) : LinkPort :=
  if lp.receiving then { lp with receiving := false, errLength := bump lp.errLength } else lp

/-- UNIT_ABORTED (R136). -/
def execUnitAborted (s : State) : Host.Outcome State Fault Refusal :=
  let s1 := s.finish
  .next { s1 with link := s1.link.cutUnit }

/-! ## The link state -/

/-- The link becomes DOWN (R134, R135, R136, R142). The LINK notice comes before the FAULT notices of the findings, and
the findings in ascending order of the channel numbers: the model's choices (log entry 24). -/
def State.linkDown (s : State) : State :=
  ({ s with link := { s.link.abandon.cutUnit with state := .down } }.notify (.linkState .down)).forEachOpen
    fun ch x => x.findPresent ch .link

/-- The link becomes UP from DOWN (R134, R135, R141). -/
def State.linkUp (s : State) : State :=
  ({ s with link := { s.link with state := .up }.start }.notify (.linkState .up)).forEachOpen
    fun ch x => x.setAbsent ch .link

/-- CARRIER_LOST (R134). -/
def execCarrierLost (s : State) : Host.Outcome State Fault Refusal :=
  let s1 := s.finish
  .next (if s1.link.state = .down then s1 else s1.linkDown)

/-- CARRIER_GAINED (R134). -/
def execCarrierGained (s : State) : Host.Outcome State Fault Refusal :=
  let s1 := s.finish
  .next (if s1.link.state = .down then s1.linkUp else s1)

/-- PAUSE_INDICATION (R134). -/
def execPauseIndication (s : State) : Host.Outcome State Fault Refusal :=
  let s1 := s.finish
  .next (if s1.link.state = .up then
    { s1 with link := { s1.link with state := .paused } }.notify (.linkState .paused) else s1)

/-- RESUME_INDICATION (R134, R141). -/
def execResumeIndication (s : State) : Host.Outcome State Fault Refusal :=
  let s1 := s.finish
  .next (if s1.link.state = .paused then
    { s1 with link := { s1.link with state := .up }.start }.notify (.linkState .up) else s1)

/-! ## The transmitter -/

/-- The end of a transmission: the slot empties, the channel leaves the queue, and the next head starts while the state
is UP (R141). -/
def LinkPort.endTransmission (lp : LinkPort) : LinkPort :=
  match lp.sending, lp.txQueue with
  | some _, ch :: rest =>
    { lp with sending := none, lastDelimiter := .endDelimiter, slots := lp.slots.set ch none, txQueue := rest }.start
  | _, _ => lp

/-- LINK_TRANSMISSION_END (R141). -/
def execLinkTransmissionEnd (s : State) : Host.Outcome State Fault Refusal :=
  let s1 := s.finish
  .next { s1 with link := s1.link.endTransmission }

end Sys2Proof.Machine
end

