-- ==== Sys2Proof/Machine/Orders.lean ====
section
/-! DEFINITION. The order processor (R176, R170) and the seventeen orders: what each takes from its body, checks and
does, with its answer (R180). -/

namespace Sys2Proof.Machine

/-! ## The order processor -/

/-- Whether a body has the length its order's kind calls for (R180). -/
def bodyLengthOk (kind : Nat) (n : Nat) : Bool :=
  match kind with
  | 0x01 | 0x02 | 0x0D | 0x0E | 0x10 => n = 0
  | 0x03 | 0x06 | 0x0A | 0x0B | 0x0C | 0x0F => n = 1
  | 0x04 => 3 ≤ n
  | 0x05 => n = 4
  | 0x07 | 0x09 => n = 3
  | 0x08 => n = 6
  | 0x11 => n = 2
  | _ => false

/-- Whether a mode admits an order of this kind (R170). -/
def modeAdmits (m : Mode) (kind : Nat) : Bool :=
  match kind, m with
  | 0x04, .setup => true
  | 0x04, _ => false
  | 0x08, .service => true
  | 0x08, _ => false
  | 0x09, .setup | 0x0A, .setup | 0x0C, .setup => false
  | _, _ => true

/-- The order the processor takes when it is idle and the answer slot free: the oldest in the buffer (R176). -/
def State.nextOrder (s : State) : Option Message :=
  match s.ctl.proc, s.ctl.answer with
  | .idle, none => s.ctl.buffer.head?
  | _, _ => none

/-- The state with the order taken out of the buffer (R175). -/
def State.takeOrder (s : State) : State := { s with ctl := { s.ctl with buffer := s.ctl.buffer.tail } }

/-- An order of one kind taken and worked on: its length and the mode checked, then its own checks and acts (R176).
Where the oldest order is of another kind, or none can be taken, this order is not taken now. R176 has the idle processor take
an order at once; here it waits, however long, until the sender commands its row (log entry 36). -/
def State.runOrder (kind : Nat) (act : Message → State → State) (s : State) : State :=
  match s.nextOrder with
  | none => s
  | some o =>
    if o.kind.toNat = kind then
      let s1 := s.takeOrder
      if !bodyLengthOk kind o.body.length then s1.answer o .length []
      else if !modeAdmits s1.mode kind then s1.answer o .mode []
      else act o s1
    else s

/-- The answer of an order that passed or failed its own checks. -/
def State.refuse (o : Message) (r : Result) (s : State) : State := s.answer o r []

/-- The byte of a body at a position. -/
def Message.at (o : Message) (i : Nat) : Byte := o.body.getD i 0

/-! ## Identity, status and mode -/

/-- IDENTIFY (R180). -/
def State.orderIdentify (o : Message) (s : State) : State :=
  s.answer o .ok ([0x4D#8, 0x57#8] ++ twoBytes 4256 ++ [1#8])

/-- READ STATUS (R180). -/
def State.statusBytes (s : State) : List Byte :=
  [byte s.mode.code, byte s.hw.sync.code, byte s.link.state.code, byte s.eng.load.state.code, s.ctl.flags,
    flagByte s.ctl.overrun]
    ++ twoBytes s.openChannels.length
    ++ twoBytes s.link.errLength ++ twoBytes s.link.errFormat ++ twoBytes s.link.errUnknownTag
    ++ twoBytes s.link.errNotAccepting

/-- READ STATUS (R180). -/
def State.orderReadStatus (o : Message) (s : State) : State := s.answer o .ok s.statusBytes

/-- The mode after an accepted SET MODE, or nothing where it is refused with MODE (R169). -/
def modeAfter (inForce wanted : Mode) (someOpen : Bool) : Option Mode :=
  match inForce, wanted with
  | .setup, .setup => some .setup
  | .setup, .service => some .service
  | .setup, .drain => none
  | .service, .service => some .service
  | .service, .drain => if someOpen then some .drain else some .setup
  | .service, .setup => if someOpen then none else some .setup
  | .drain, .drain => some .drain
  | .drain, .service => some .service
  | .drain, .setup => none

/-- SET MODE (R169). -/
def State.orderSetMode (o : Message) (s : State) : State :=
  match modeOfCode (o.at 0).toNat with
  | none => s.refuse o .range
  | some wanted =>
    match modeAfter s.mode wanted (!s.openChannels.isEmpty) with
    | none => s.refuse o .mode
    | some m => { s with mode := m }.answer o .ok [byte m.code]

/-! ## Configuration -/

/-- The reserved set of a list of timeslot numbers (R29). -/
def reservedSet (list : List Byte) : Vector Bool 32 :=
  Vector.ofFn fun t => list.any fun b => b.toNat = t.val

/-- SET HIGHWAY (R29). -/
def State.orderSetHighway (o : Message) (s : State) : State :=
  let h := (o.at 0).toNat
  let list := o.body.drop 3
  if hh : h < 8 then
    match enableOfCode (o.at 1).toNat, lawOfCode (o.at 2).toNat with
    | some en, some law =>
      if list.length ≤ 32 && list.all fun b => b.toNat < 32 then
        { s with hw := { s.hw with records := s.hw.records.set h ⟨en, law, reservedSet list⟩ } }.answer o .ok []
      else s.refuse o .range
    | _, _ => s.refuse o .range
  else s.refuse o .range

/-- A value in a range of whole numbers, as a number. -/
def inRange (lo hi : Nat) (v : Int) : Option Nat := if (lo : Int) ≤ v && v ≤ hi then some v.toNat else none

/-- A fault kind by its place in the order of R146. -/
def kindAt (n : Nat) : FaultKind := allKinds.getD n .link

/-- The profile with one field written, or nothing where the value is outside the field's range (R163, R165). The
field numbers run in the order of the table of R163: the 18 single fields, then the seven classes, the seven retry
times and the seven retry limits (log entry 8). -/
def Profile.write (p : Profile) (field : Nat) (v : Int) : Option Profile :=
  match field with
  | 0 => (inRange 1 7 v).map fun m => { p with rateSet := ⟨m.testBit 0, m.testBit 1, m.testBit 2⟩ }
  | 1 => (inRange 1 3 v).bind fun c => (rateOfCode c).map fun r => { p with initialRate := r }
  | 2 => if -12 ≤ v && v ≤ 12 then some { p with gainUp := v } else none
  | 3 => if -12 ≤ v && v ≤ 12 then some { p with gainDn := v } else none
  | 4 => (inRange 1 4 v).map fun n => { p with startDepth := n }
  | 5 => (inRange 0 1200 v).map fun n => { p with marginLo := n }
  | 6 => (inRange 0 1200 v).map fun n => { p with marginHi := n }
  | 7 => (inRange 0 1 v).map fun n => { p with dtx := n = 1 }
  | 8 => (inRange 0 4095 v).map fun n => { p with vadLevel := n }
  | 9 => (inRange 0 15 v).map fun n => { p with hangover := n }
  | 10 => (inRange 1 16 v).map fun n => { p with concealLimit := n }
  | 11 => (inRange 0 2 v).bind fun c => (outDnOfCode c).map fun x => { p with outDn := x }
  | 12 => (inRange 0 2 v).bind fun c => (outUpOfCode c).map fun x => { p with outUp := x }
  | 13 => (inRange 2 250 v).map fun n => { p with starveCycles := n }
  | 14 => (inRange 1 50 v).map fun n => { p with lateLimit := n }
  | 15 => (inRange 1 8000 v).map fun n => { p with overloadLimit := n }
  | 16 => (inRange 5 100 v).map fun n => { p with driftLimit := n }
  | 17 => (inRange 1 50 v).map fun n => { p with missLimit := n }
  | n =>
    if n < 25 then
      (inRange 0 3 v).bind fun c => (classOfCode c).map fun x => { p with cls := p.cls.set (kindAt (n - 18)).index x }
    else if n < 32 then
      (inRange 1 250 v).map fun t => { p with retryTime := p.retryTime.set (kindAt (n - 25)).index t }
    else if n < 39 then
      (inRange 0 15 v).map fun l => { p with retryLimit := p.retryLimit.set (kindAt (n - 32)).index l }
    else none

/-- SET PROFILE (R165). -/
def State.orderSetProfile (o : Message) (s : State) : State :=
  let n := (o.at 0).toNat
  if hn : n < 16 then
    if n = 0 then s.refuse o .protectedProfile
    else
      match (s.profiles[n]).write (o.at 1).toNat (ofTwoSigned (o.at 2) (o.at 3)) with
      | none => s.refuse o .range
      | some p => { s with profiles := s.profiles.set n { p with defaulted := false } }.answer o .ok []
  else s.refuse o .range

/-- GET PROFILE (R166). -/
def State.orderGetProfile (o : Message) (s : State) : State :=
  let n := (o.at 0).toNat
  if hn : n < 16 then s.answer o .ok (s.profiles[n]).bytes else s.refuse o .range

/-- A device setting's value in its range (R168). -/
def DeviceSettings.write (d : DeviceSettings) (setting v : Nat) : Option DeviceSettings :=
  match setting with
  | 0 => (styleOfCode v).map fun st => { d with historyStyle := st }
  | 1 => if 1 ≤ v && v ≤ 1000 then some { d with loadLimit := v } else none
  | n => if v ≤ 3 && n < 9 then some { d with levels := d.levels.set (Fin.ofNat 7 (n - 2)) v } else none

/-- SET DEVICE (R168). -/
def State.orderSetDevice (o : Message) (s : State) : State :=
  let setting := (o.at 0).toNat
  if 8 < setting then s.refuse o .range
  else if setting = 0 && s.mode ≠ .setup then s.refuse o .mode
  else
    match s.settings.write setting (ofTwo (o.at 1) (o.at 2)) with
    | none => s.refuse o .range
    | some d => { s with settings := d }.answer o .ok []

/-- SET LINE: accepted settings wait for the end of their answer (R173). -/
def State.orderSetLine (o : Message) (s : State) : State :=
  match speedOfCode (o.at 0).toNat, parityOfCode (o.at 1).toNat with
  | some sp, some pa => { s with ctl := { s.ctl with newLine := some ⟨sp, pa⟩ } }.answer o .ok []
  | _, _ => s.refuse o .range

/-! ## Calls -/

/-- The bucket with the smallest count, the lowest among equals (R6, R128). -/
def smallestBucket (v : Vector Nat 16) : Bucket :=
  (List.finRange 16).foldl (fun best b => if v[b] < v[best] then b else best) 0

/-- The values an accepted OPEN names (R5). -/
structure OpenValues where
  chan : Chan
  tag : Tag
  highway : HighwayNo
  timeslot : Timeslot
  profile : ProfileNo
  deriving DecidableEq, Repr

/-- The checks of R5 after the mode's, in their order: the first that fails, or the order's values. -/
def State.checkOpen (o : Message) (s : State) : Except Result OpenValues :=
  let ch : Chan := Fin.ofNat 256 (o.at 0).toNat
  let tag := ofTwo (o.at 1) (o.at 2)
  let h := (o.at 3).toNat
  let t := (o.at 4).toNat
  let p := (o.at 5).toNat
  if s.eng.load.state ≠ .normal then .error .load
  else if s.chan[ch].isSome then .error .channelBusy
  else if ht : tag < 4096 then
    if s.tagMap[tag].isSome then .error .tagInUse
    else if hh : h < 8 then
      if !s.hw.records[h].enabled then .error .range
      else if hs : t < 32 then
        if s.hw.records[h].reserved[t] then .error .slotReserved
        else if s.hw.bindings[slotNo ⟨h, hh⟩ ⟨t, hs⟩].isSome then .error .slotInUse
        else if hp : p < 16 then .ok ⟨ch, ⟨tag, ht⟩, ⟨h, hh⟩, ⟨t, hs⟩, ⟨p, hp⟩⟩
        else .error .range
      else .error .range
    else .error .range
  else .error .range

/-- Whether a profile's INITIAL_RATE disagrees with its RATE_SET (R167). -/
def Profile.rateDisagrees (p : Profile) : Bool := !p.rateSet.mem p.initialRate

/-- The initial rate a profile gives a call (R6 step 2, R167). -/
def Profile.openRate (p : Profile) : Rate :=
  if p.rateDisagrees then p.rateSet.highest.getD p.initialRate else p.initialRate

/-- The samples of the first block of a call opened in the period C = now (R7). -/
def firstBlock (phiUp now : Phase) : Nat :=
  let s := (phiUp.val + 319 - now.val) % 160
  if s = 0 then 160 else s

/-- The fault record of a new call. -/
def FaultRecord.fresh : FaultRecord := ⟨false, .none, .none, 0, 0⟩

/-- The statistics of a new call (R18). -/
def Stats.zero : Stats := ⟨0, 0, 0, 0, 0, 0, 0, 0, 0, 0, 0, 0, 0, 0, 0, 0⟩

/-- The context OPEN sets up (R3, R6, R7), for a phase and in the period C = now. -/
def openContext (v : OpenValues) (p : Profile) (phi now : Phase) : Context where
  state := .aligning
  tag := v.tag
  highway := v.highway
  timeslot := v.timeslot
  profile := v.profile
  initialRate := p.openRate
  gainUp := p.gainUp
  gainDn := p.gainDn
  gainNow := p.gainDn
  startDepth := p.startDepth
  dtx := p.dtx
  hangover := p.hangover
  concealLimit := p.concealLimit
  phiUp := phi
  phiDn := phi
  nUp := 160 - firstBlock phi now
  blockLen := 160
  fresh := true
  ring := List.replicate 200 0
  encY := 0
  upRate := p.openRate
  hangCount := 0
  lastKind := .speech
  sidAge := 0
  upSeq := 0
  adjust := none
  upEcho := 0
  rateReq := none
  queue := []
  expected := none
  playout := .waiting
  started := false
  tooEarlyRun := 0
  output := .idle
  concealIndex := 0
  lastGood := List.replicate 160 0
  decY := 0
  noiseLevel := none
  noiseGen := noiseSeed v.chan
  starvation := 0
  outcome := .none
  block := List.replicate 160 0
  winCount := 0
  winMin := none
  winLate := 0
  request := none
  lastToken := 0
  drift := 0
  faults := Vector.replicate 7 .fresh
  window := none
  satUpWin := 0
  satDnWin := 0
  missWin := 0
  stats := .zero

/-- The egress slot of a channel marked left-over at OPEN, where it still holds a frame (R140). -/
def LinkPort.markLeftOver (ch : Chan) (lp : LinkPort) : LinkPort :=
  match lp.slots[ch] with
  | none => lp
  | some sl => { lp with slots := lp.slots.set ch (some { sl with leftOver := true }) }

/-- The phase OPEN gives a call: 10·b + (channel mod 10), for the bucket b chosen (R6 step 3, R128). -/
def openPhase (buckets : Vector Nat 16) (ch : Chan) : Phase :=
  Fin.ofNat 160 (10 * (smallestBucket buckets).val + ch.val % 10)

/-- The call set up (R6, R7, R128, R140, R144). -/
def State.setUpCall (v : OpenValues) (s : State) : State :=
  let phi := openPhase s.eng.buckets v.chan
  { s with
    tagMap := s.tagMap.set v.tag (some v.chan)
    chan := s.chan.set v.chan (some (openContext v (s.profiles[v.profile]) phi s.hw.c))
    hw := { s.hw with bindings := s.hw.bindings.set (slotNo v.highway v.timeslot) (some v.chan) }
    eng := { s.eng with buckets := raiseBucket (smallestBucket s.eng.buckets) 2 s.eng.buckets }
    link := s.link.markLeftOver v.chan
    faultFrames := s.faultFrames.set v.chan 0 }

/-- The conditions found present at OPEN: HIGHWAY while the sync is LOST, LINK while the link is DOWN (R26, R135,
R146). -/
def State.openConditions (ch : Chan) (s : State) : State :=
  let s1 := if s.hw.sync = .lost then s.findPresent ch .highway else s
  if s1.link.state = .down then s1.findPresent ch .link else s1

/-- OPEN (R5, R6, R7). -/
def State.orderOpen (o : Message) (s : State) : State :=
  match s.checkOpen o with
  | .error r => s.refuse o r
  | .ok v =>
    let s1 := if (s.profiles[v.profile]).rateDisagrees then s.markDefaulted v.chan v.profile else s
    ((s1.setUpCall v).openConditions v.chan).answer o .ok [byte (openPhase s.eng.buckets v.chan).val]

/-- The channel an order's first byte names. -/
def Message.chanAt (o : Message) : Chan := Fin.ofNat 256 (o.at 0).toNat

/-- MODIFY (R8). -/
def State.orderModify (o : Message) (s : State) : State :=
  if s.chan[o.chanAt].isNone then s.refuse o .notOpen
  else
    let up := (o.at 1).toInt
    let dn := (o.at 2).toInt
    if -12 ≤ up && up ≤ 12 && -12 ≤ dn && dn ≤ 12 then
      (s.modCtx o.chanAt fun c => { c with gainUp := up, gainDn := dn }).answer o .ok []
    else s.refuse o .range

/-- CLOSE: the channel enters CLOSING and the processor holds the order (R9, R176). -/
def State.orderClose (o : Message) (s : State) : State :=
  if s.chan[o.chanAt].isNone then s.refuse o .notOpen
  else
    let s1 := s.modCtx o.chanAt fun c => { c with state := .closing }
    { s1 with ctl := { s1.ctl with proc := .holding o.tag o.chanAt } }

/-- QUERY (R19). -/
def State.orderQuery (o : Message) (s : State) : State :=
  match s.chan[o.chanAt] with
  | none => s.refuse o .notOpen
  | some c => s.answer o .ok c.queryBytes

/-! ## Faults, history, notices -/

/-- One kind of a channel cleared if it is LATCHED or REPORTED with its condition absent (R158). -/
def State.clearIfAbsent (ch : Chan) (s : State) (k : FaultKind) : State :=
  match s.chan[ch] with
  | none => s
  | some c =>
    match (c.fault k).state with
    | .latched | .reported => if (c.fault k).present then s else s.clearKind ch k
    | .none | .retrying => s

/-- One channel cleared: its kinds in order, then its recovery (R156, R158). -/
def State.clearChannel (ch : Chan) (s : State) : State :=
  (allKinds.foldl (State.clearIfAbsent ch) s).recoverIfClear ch

/-- The kinds of a channel still LATCHED or REPORTED (R158). -/
def Context.stillHeld (c : Context) : List FaultKind :=
  allKinds.filter fun k => (c.fault k).state = .latched || (c.fault k).state = .reported

/-- The kinds still LATCHED or REPORTED of a channel, none where it is FREE. -/
def State.stillHeld (s : State) (ch : Chan) : List FaultKind :=
  match s.chan[ch] with
  | none => []
  | some c => c.stillHeld

/-- The answer to CLEAR FAULTS of one channel (R158, R180). STILL_PRESENT carries the recognised state of each of the seven
kinds, as R180 lays it out; so a RETRYING kind stands in it as RETRYING, though R158 names only kinds still LATCHED or
REPORTED and R159 says that the answer does not include it: the model's choice (log entry 38). -/
def State.answerClear (o : Message) (ch : Chan) (s : State) : State :=
  match s.chan[ch] with
  | none => s.answer o .ok []
  | some c =>
    if c.stillHeld.isEmpty then s.answer o .ok []
    else s.answer o .stillPresent (c.faults.toList.map fun f => byte f.state.code)

/-- The mask of a set of fault kinds, bit 0 STARVATION to bit 6 LINK (R180). -/
def kindMask (ks : List FaultKind) : Byte :=
  allKinds.foldl (fun m k => if ks.contains k then m ||| (1#8 <<< k.index.val) else m) 0#8

/-- The answer to CLEAR FAULTS of every channel (R158, R180). -/
def State.answerClearAll (o : Message) (s : State) : State :=
  let held := (s.openChannels.map s.stillHeld).filter fun ks => !ks.isEmpty
  if held.isEmpty then s.answer o .ok []
  else s.answer o .stillPresent (twoBytes held.length ++ [kindMask held.flatten])

/-- CLEAR FAULTS (R157, R158). -/
def State.orderClearFaults (o : Message) (s : State) : State :=
  if (o.at 0).toNat = 255 then (s.forEachOpen State.clearChannel).answerClearAll o
  else if s.chan[o.chanAt].isNone then s.refuse o .notOpen
  else (s.clearChannel o.chanAt).answerClear o o.chanAt

/-- READ HISTORY (R162, R180). -/
def State.orderReadHistory (o : Message) (s : State) : State :=
  s.answer o .ok (byte s.history.length :: s.history.flatMap HistoryRecord.bytes)

/-- CLEAR HISTORY (R162). -/
def State.orderClearHistory (o : Message) (s : State) : State := { s with history := [] }.answer o .ok []

/-- ACK NOTICES (R179). -/
def State.orderAckNotices (o : Message) (s : State) : State :=
  let mask := o.at 0
  if mask.getLsbD 7 then s.refuse o .range
  else
    { s with ctl := { s.ctl with
        flags := s.ctl.flags &&& ~~~mask
        overrun := s.ctl.overrun && !mask.getLsbD 6 } }.answer o .ok []

/-! ## RESTART -/

/-- The link port at RESTART: the link state kept, a transmission in progress ended with the abort delimiter, everything
else emptied (R133, R142). That a unit being received goes on being received is the model's choice: no rule says what
RESTART does to it (log entry 28). -/
def LinkPort.restart (lp : LinkPort) : LinkPort :=
  { LinkPort.reset with
    state := lp.state
    receiving := lp.receiving
    lastDelimiter := lp.abandon.lastDelimiter }

/-- The control line at RESTART: the receiver and the message being sent kept; the order buffer, the notice queue, the
pending flags and OVERRUN cleared (R20, R174, R175, R177, R178, R179). -/
def ControlLine.restart (ctl : ControlLine) : ControlLine :=
  { ctl with buffer := [], overrun := false, notices := [], flags := 0 }

/-- RESTART's work (R20, R38, R130, R133, R162, R172). -/
def State.restarted (s : State) : State :=
  { s with
    chan := Vector.replicate 256 none
    tagMap := Vector.replicate 4096 none
    hw := { s.hw with bindings := Vector.replicate 256 none }
    eng := EngineBlock.reset
    link := s.link.restart
    faultFrames := Vector.replicate 256 0
    mode := if s.mode = .drain then .setup else s.mode
    ctl := s.ctl.restart
    due := []
    ahead := []
    rest := [] }

/-- RESTART (R20). -/
def State.orderRestart (o : Message) (s : State) : State := s.restarted.answer o .ok []

/-! ## The commands -/

/-- IDENTIFY. -/
def execIdentify (s : State) : Host.Outcome State Fault Refusal := .next (s.finish.runOrder 0x01 State.orderIdentify)

/-- READ_STATUS. -/
def execReadStatus (s : State) : Host.Outcome State Fault Refusal :=
  .next (s.finish.runOrder 0x02 State.orderReadStatus)

/-- SET_MODE. -/
def execSetMode (s : State) : Host.Outcome State Fault Refusal := .next (s.finish.runOrder 0x03 State.orderSetMode)

/-- SET_HIGHWAY. -/
def execSetHighway (s : State) : Host.Outcome State Fault Refusal :=
  .next (s.finish.runOrder 0x04 State.orderSetHighway)

/-- SET_PROFILE. -/
def execSetProfile (s : State) : Host.Outcome State Fault Refusal :=
  .next (s.finish.runOrder 0x05 State.orderSetProfile)

/-- GET_PROFILE. -/
def execGetProfile (s : State) : Host.Outcome State Fault Refusal :=
  .next (s.finish.runOrder 0x06 State.orderGetProfile)

/-- SET_DEVICE. -/
def execSetDevice (s : State) : Host.Outcome State Fault Refusal :=
  .next (s.finish.runOrder 0x07 State.orderSetDevice)

/-- OPEN. -/
def execOpen (s : State) : Host.Outcome State Fault Refusal := .next (s.finish.runOrder 0x08 State.orderOpen)

/-- MODIFY. -/
def execModify (s : State) : Host.Outcome State Fault Refusal := .next (s.finish.runOrder 0x09 State.orderModify)

/-- CLOSE. -/
def execClose (s : State) : Host.Outcome State Fault Refusal := .next (s.finish.runOrder 0x0A State.orderClose)

/-- QUERY. -/
def execQuery (s : State) : Host.Outcome State Fault Refusal := .next (s.finish.runOrder 0x0B State.orderQuery)

/-- CLEAR_FAULTS. -/
def execClearFaults (s : State) : Host.Outcome State Fault Refusal :=
  .next (s.finish.runOrder 0x0C State.orderClearFaults)

/-- READ_HISTORY. -/
def execReadHistory (s : State) : Host.Outcome State Fault Refusal :=
  .next (s.finish.runOrder 0x0D State.orderReadHistory)

/-- CLEAR_HISTORY. -/
def execClearHistory (s : State) : Host.Outcome State Fault Refusal :=
  .next (s.finish.runOrder 0x0E State.orderClearHistory)

/-- ACK_NOTICES. -/
def execAckNotices (s : State) : Host.Outcome State Fault Refusal :=
  .next (s.finish.runOrder 0x0F State.orderAckNotices)

/-- RESTART. -/
def execRestart (s : State) : Host.Outcome State Fault Refusal := .next (s.finish.runOrder 0x10 State.orderRestart)

/-- SET_LINE. -/
def execSetLine (s : State) : Host.Outcome State Fault Refusal := .next (s.finish.runOrder 0x11 State.orderSetLine)

/-- An order whose kind is not 0x01..0x11 is answered UNKNOWN_ORDER (R176 step 1). -/
def State.runUnknownOrder (s : State) : State :=
  match s.nextOrder with
  | none => s
  | some o =>
    if 1 ≤ o.kind.toNat && o.kind.toNat ≤ 0x11 then s else s.takeOrder.refuse o .unknownOrder

/-- UNKNOWN_ORDER. -/
def execUnknownOrder (s : State) : Host.Outcome State Fault Refusal := .next s.finish.runUnknownOrder

end Sys2Proof.Machine
end

