-- ==== Sys2Proof/Machine/Receive.lean ====
section
/-! DEFINITION. The commands of the control line's receiver and transmitter: START_MARKER, COUNT_BYTE, BAD_COUNT_BYTE,
BODY_BYTE, CONTROL_MESSAGE_RECEIVED, GAP_TIMEOUT and CONTROL_TRANSMIT_END (R173 to R177). A row acts in the framing
state its rule names; in any other state that event does not occur. -/

namespace Sys2Proof.Machine

/-- The cause a LINE notice ERROR carries for a parity error, a framing error, or both. Where both occurred R174 states
no choice: the cause is the free value of Config (log entry 6). `other` is the cause where neither occurred. -/
def errorCause (freeCount : Nat) (parityErr framingErr : Bool) (other : LineCause) : LineCause :=
  match parityErr, framingErr with
  | false, false => other
  | true, false => .parity
  | false, true => .framing
  | true, true => if Config.mixedErrorIsFraming freeCount then .framing else .parity

/-- Whether a received byte has a parity error (R174). -/
def hasParity : ByteError → Bool
  | .parity | .both => true
  | .none | .framing => false

/-- Whether a received byte has a framing error (R174). -/
def hasFraming : ByteError → Bool
  | .framing | .both => true
  | .none | .parity => false

/-- The state with a receive framing state. -/
def State.withRx (rx : RxState) (s : State) : State := { s with ctl := { s.ctl with rx := rx } }

/-- A message abandoned or discarded, with its LINE notice ERROR (R174). A free value is used where both errors
occurred. -/
def State.dropMessage (parityErr framingErr : Bool) (other : LineCause) (s : State) : State :=
  let s1 := { s.withRx .hunt with freeCount := if parityErr && framingErr then s.freeCount + 1 else s.freeCount }
  s1.notify (.lineError (errorCause s.freeCount parityErr framingErr other))

/-- A message being received is abandoned, as for a gap (R173, R174). Its notice carries GAP whether or not a byte has already
marked the message bad: R174 ranks neither cause, and this is the model's reading (log entry 35). -/
def State.abandonMessage (s : State) : State :=
  match s.ctl.rx with
  | .hunt => s
  | .count | .body _ _ _ _ => s.dropMessage false false .gap

/-- A good message offered to the order buffer (R175). -/
def State.offerOrder (m : Message) (s : State) : State :=
  if s.ctl.buffer.length < 4 then { s with ctl := { s.ctl with buffer := s.ctl.buffer ++ [m] } }
  else { s with ctl := { s.ctl with overrun := true } }.notify .lineOverrun

/-- The order of a message's bytes after its count: kind, tag and body (R181). -/
def messageOf : List Byte → Option Message
  | kind :: tag :: body => some ⟨kind, tag, body⟩
  | _ => none

/-- The last byte of a message: a good message is offered to the order buffer, a bad one discarded (R174). -/
def State.completeMessage (b : Byte) (err : ByteError) (s : State) : State :=
  match s.ctl.rx with
  | .hunt | .count => s
  | .body n got pe fe =>
    if got.length + 1 = n then
      let pe1 := pe || hasParity err
      let fe1 := fe || hasFraming err
      if pe1 || fe1 then s.dropMessage pe1 fe1 .count
      else
        match messageOf (got ++ [b]) with
        | none => s.withRx .hunt
        | some m => (s.withRx .hunt).offerOrder m
    else s

/-- A body byte other than the last (R174). -/
def State.storeByte (b : Byte) (err : ByteError) (s : State) : State :=
  match s.ctl.rx with
  | .hunt | .count => s
  | .body n got pe fe =>
    if got.length + 1 < n then s.withRx (.body n (got ++ [b]) (pe || hasParity err) (fe || hasFraming err)) else s

/-- The start marker: 0xC5 without error in HUNT; there every other byte is dropped and nothing counted (R174). -/
def State.markStart (b : Byte) (err : ByteError) (s : State) : State :=
  match s.ctl.rx with
  | .hunt => if b = 0xC5#8 && err = .none then s.withRx .count else s
  | .count | .body _ _ _ _ => s

/-- A good count byte in COUNT: 2..250 without error (R174). -/
def State.takeCount (b : Byte) (err : ByteError) (s : State) : State :=
  match s.ctl.rx with
  | .count => if err = .none && goodCount b then s.withRx (.body b.toNat [] false false) else s
  | .hunt | .body _ _ _ _ => s

/-- A bad count byte in COUNT: outside 2..250, or with an error (R174). One that is both gives the cause of its error: R174
ranks neither there, and this is the model's reading (log entry 39). -/
def State.refuseCount (b : Byte) (err : ByteError) (s : State) : State :=
  match s.ctl.rx with
  | .count => if err = .none && goodCount b then s else s.dropMessage (hasParity err) (hasFraming err) .count
  | .hunt | .body _ _ _ _ => s

/-- A byte received from its bits on the line, read at the line's parity as it stands (R173). Bits that are no frame at
that parity are no byte, and nothing is received. -/
def State.receiveByte (act : Byte → ByteError → State → State) (bits : List Bool) (s : State) : State :=
  match readFrame s.settings.line.parity bits with
  | none => s
  | some (b, err) => act b err s

/-- A byte received without error: its frame at the line's parity (R173). -/
def State.receiveGood (act : Byte → ByteError → State → State) (b : Byte) (s : State) : State :=
  s.receiveByte act (byteFrame s.settings.line.parity b)

/-- START_MARKER (R174). -/
def execStartMarker (s : State) : Host.Outcome State Fault Refusal :=
  .next (s.finish.receiveGood State.markStart 0xC5#8)

/-- COUNT_BYTE (R174). -/
def execCountByte (b : Byte) (s : State) : Host.Outcome State Fault Refusal :=
  .next (s.finish.receiveGood State.takeCount b)

/-- BAD_COUNT_BYTE (R174). -/
def execBadCountByte (b : Byte) (tail : List Bool) (s : State) : Host.Outcome State Fault Refusal :=
  .next (s.finish.receiveByte State.refuseCount (frameBits b tail))

/-- BODY_BYTE (R174). -/
def execBodyByte (b : Byte) (tail : List Bool) (s : State) : Host.Outcome State Fault Refusal :=
  .next (s.finish.receiveByte State.storeByte (frameBits b tail))

/-- CONTROL_MESSAGE_RECEIVED (R174, R175). -/
def execControlMessageReceived (b : Byte) (tail : List Bool) (s : State) : Host.Outcome State Fault Refusal :=
  .next (s.finish.receiveByte State.completeMessage (frameBits b tail))

/-- GAP_TIMEOUT (R174). -/
def execGapTimeout (s : State) : Host.Outcome State Fault Refusal :=
  .next s.finish.abandonMessage

/-- The end of a message on the control line (R173, R177). At the end of a SET LINE's answer its settings take effect,
and a message then being received is abandoned. -/
def State.endControlMessage (s : State) : State :=
  match s.ctl.tx, s.ctl.newLine with
  | .answer, some line =>
    { s with
      settings := { s.settings with line := line }
      ctl := s.ctl.endMessage }.abandonMessage
  | _, _ => { s with ctl := s.ctl.endMessage }

/-- CONTROL_TRANSMIT_END (R173, R177). -/
def execControlTransmitEnd (s : State) : Host.Outcome State Fault Refusal :=
  .next s.finish.endControlMessage

end Sys2Proof.Machine
end

