-- ==== Sys2Proof/Machine/Dispatch.lean ====
section
/-! DEFINITION. The meaning of each command: one arm per row of spec/opcode_table.json, in the table's order. -/

namespace Sys2Proof.Machine

def exec (i : Instr) (s : State) : Host.Outcome State Fault Refusal :=
  match i with
  | .hardwareReset start law line => Sys2Proof.Machine.execHardwareReset start law line s
  | .fsyncPulse tNs codes => Sys2Proof.Machine.execFsyncPulse tNs codes s
  | .missingPeriodStart codes => Sys2Proof.Machine.execMissingPeriodStart codes s
  | .uplinkBoundary ch => Sys2Proof.Machine.execUplinkBoundary ch s
  | .downlinkBoundary ch => Sys2Proof.Machine.execDownlinkBoundary ch s
  | .supervisionWindowEnd ch => Sys2Proof.Machine.execSupervisionWindowEnd ch s
  | .retryTimerExpiry ch => Sys2Proof.Machine.execRetryTimerExpiry ch s
  | .outputBlockStart ch => Sys2Proof.Machine.execOutputBlockStart ch s
  | .jobCompletion e => Sys2Proof.Machine.execJobCompletion e s
  | .jobDeadline ch kind => Sys2Proof.Machine.execJobDeadline ch kind s
  | .loadWindowEnd => Sys2Proof.Machine.execLoadWindowEnd s
  | .linkFrameArrival bytes => Sys2Proof.Machine.execLinkFrameArrival bytes s
  | .unitAborted => Sys2Proof.Machine.execUnitAborted s
  | .observationWindowEnd ch => Sys2Proof.Machine.execObservationWindowEnd ch s
  | .carrierLost => Sys2Proof.Machine.execCarrierLost s
  | .carrierGained => Sys2Proof.Machine.execCarrierGained s
  | .pauseIndication => Sys2Proof.Machine.execPauseIndication s
  | .resumeIndication => Sys2Proof.Machine.execResumeIndication s
  | .linkTransmissionEnd => Sys2Proof.Machine.execLinkTransmissionEnd s
  | .controlMessageReceived b tail => Sys2Proof.Machine.execControlMessageReceived b tail s
  | .gapTimeout => Sys2Proof.Machine.execGapTimeout s
  | .badCountByte b tail => Sys2Proof.Machine.execBadCountByte b tail s
  | .controlTransmitEnd => Sys2Proof.Machine.execControlTransmitEnd s
  | .identify => Sys2Proof.Machine.execIdentify s
  | .readStatus => Sys2Proof.Machine.execReadStatus s
  | .setMode => Sys2Proof.Machine.execSetMode s
  | .setHighway => Sys2Proof.Machine.execSetHighway s
  | .setProfile => Sys2Proof.Machine.execSetProfile s
  | .getProfile => Sys2Proof.Machine.execGetProfile s
  | .setDevice => Sys2Proof.Machine.execSetDevice s
  | .openCall => Sys2Proof.Machine.execOpen s
  | .modify => Sys2Proof.Machine.execModify s
  | .close => Sys2Proof.Machine.execClose s
  | .query => Sys2Proof.Machine.execQuery s
  | .clearFaults => Sys2Proof.Machine.execClearFaults s
  | .readHistory => Sys2Proof.Machine.execReadHistory s
  | .clearHistory => Sys2Proof.Machine.execClearHistory s
  | .ackNotices => Sys2Proof.Machine.execAckNotices s
  | .restart => Sys2Proof.Machine.execRestart s
  | .setLine => Sys2Proof.Machine.execSetLine s
  | .startMarker => Sys2Proof.Machine.execStartMarker s
  | .countByte b => Sys2Proof.Machine.execCountByte b s
  | .bodyByte b tail => Sys2Proof.Machine.execBodyByte b tail s
  | .unknownOrder => Sys2Proof.Machine.execUnknownOrder s
  | .startDelimiter => Sys2Proof.Machine.execStartDelimiter s

end Sys2Proof.Machine
end

