-- ==== Sys2Proof/Safety.lean ====
section
/-! DEFINITION. What counts as a sound state of the part, in the terms the statements use: the invariants the manual
states of its state, and the frames that say what an event leaves as it stands. -/

namespace Sys2Proof.Machine

/-! ## Frames -/

/-- What the events of calls, jobs and supervision leave as it stands: the highway clock and records, the tag and
binding maps, the configuration, the link state with its counters, and the receive side and orders of the control
line. They may change the channels, the engines, the egress side of the link port, the history, the notices and
flags, and the codes being driven. -/
structure KeepsSetting (s t : State) : Prop where
  hw : t.hw = { s.hw with driven := t.hw.driven }
  tagMap : t.tagMap = s.tagMap
  profiles : t.profiles = s.profiles
  settings : t.settings = s.settings
  mode : t.mode = s.mode
  freeCount : t.freeCount = s.freeCount
  pending : t.pending = s.pending
  ahead : t.ahead = s.ahead
  linkState : t.link.state = s.link.state
  receiving : t.link.receiving = s.link.receiving
  errLength : t.link.errLength = s.link.errLength
  errFormat : t.link.errFormat = s.link.errFormat
  errUnknownTag : t.link.errUnknownTag = s.link.errUnknownTag
  errNotAccepting : t.link.errNotAccepting = s.link.errNotAccepting
  rx : t.ctl.rx = s.ctl.rx
  buffer : t.ctl.buffer = s.ctl.buffer
  overrun : t.ctl.overrun = s.ctl.overrun
  proc : t.ctl.proc = s.ctl.proc
  answer : t.ctl.answer = s.ctl.answer
  newLine : t.ctl.newLine = s.ctl.newLine

/-- Every channel but one is as it was, with its fault frame count. -/
def OthersKept (ch : Chan) (s t : State) : Prop :=
  ∀ d : Chan, d ≠ ch → t.chan[d] = s.chan[d] ∧ t.faultFrames[d] = s.faultFrames[d]

/-! ## The sample period (R23, R27) -/

/-- A pulse falls within 15 µs before or after the expected instant (R23). -/
def PulseIsGood (s : State) (tNs : Nat) : Prop := s.hw.expected ≤ tNs + 15000 ∧ tNs ≤ s.hw.expected + 15000

/-- A command that starts the next sample period, `tNs` after the start of the one in progress: a good pulse, or the
missing start at the expected instant (R23). -/
def StartsPeriod (i : Instr) (good : Bool) (tNs : Nat) (codes : HighwayCodes) (s : State) : Prop :=
  (i = .fsyncPulse tNs codes ∧ good = true ∧ PulseIsGood s tNs) ∨
  (i = .missingPeriodStart codes ∧ good = false ∧ tNs = s.hw.expected)

/-- The state in which the period in progress ends, `tNs` after its start: what was left to do in it has been done
(R27, log entries 2 and 3). -/
def State.atPeriodEnd (s : State) (tNs : Nat) : State := s.finish.endPeriod tNs

/-- The state in which the next period start does its own work: the period in progress has ended, the clock has moved, and
the events commanded ahead have been taken (R27, log entry 23). -/
def State.atPeriodStart (s : State) (tNs : Nat) (codes : HighwayCodes) : State := (s.atPeriodEnd tNs).beginPeriod codes

/-- The clock at the start of the next period, the rest as it was: C, the cycle count and the period start have moved on,
the local timer expects the pulse after it, and no timeslot is driven yet (R23, R27, R37). -/
def State.clockMoved (s : State) : State :=
  { s with hw := { s.hw with
      c := s.hw.c + 1
      cycle := if s.hw.c.val = 159 then s.hw.cycle + 1 else s.hw.cycle
      periodStart := s.hw.periodStart + 125000
      expected := 125000
      driven := Vector.replicate 256 none } }

/-! ## Notices and records of one event (R160, R161, R178) -/

/-- The state after these notices have been generated in this order. -/
def State.notifyAll (bs : List NoticeBody) (s : State) : State := bs.foldl (fun x b => x.notify b) s

/-- One event of the fault kinds, as a notice and a history record name it: its channel, its kind, the class captured
and what happened (R160, R161). -/
structure FaultReport where
  chan : Chan
  kind : FaultKind
  cls : FaultClass
  event : FaultEvent

/-- The FAULT notice of a report (R160). -/
def FaultReport.notice (r : FaultReport) : NoticeBody :=
  match r.event with
  | .raised => .faultRaised r.chan r.kind
  | .escalated => .faultEscalated r.chan r.kind
  | .cleared => .faultCleared r.chan r.kind

/-- The fault history after the records of these reports have been offered in this order (R161). -/
def State.historyAfter (rs : List FaultReport) (s : State) : List HistoryRecord :=
  rs.foldl (fun h r => storeRecord s.settings.historyStyle ⟨s.hw.cycle, r.chan, r.kind, r.cls, r.event⟩ h) s.history

/-- The report of a condition found present in a channel of this context, if its kind is NONE and the class in the
channel's profile is not OFF (R150); none in CLOSING (R146). -/
def State.raisedBy (s : State) (k : FaultKind) (ch : Chan) (c : Context) : List FaultReport :=
  if c.state ≠ .closing ∧ (c.fault k).state = .none ∧ (s.profileOf c).cls[k.index] ≠ .off
  then [⟨ch, k, (s.profileOf c).cls[k.index], .raised⟩] else []

/-- The reports of a condition found present in every channel that is not FREE, in ascending order (log entry 24). -/
def State.raisedByAll (s : State) (k : FaultKind) : List FaultReport :=
  allChannels.flatMap fun ch => (s.chan[ch]).toList.flatMap (s.raisedBy k ch)

/-! ## Supervision (R150) -/

/-- The recognised state a response class gives (R150). -/
def stateOfClass : FaultClass → Recognised
  | .off => .none
  | .report => .reported
  | .retry => .retrying
  | .latched => .latched

/-- The recognised state of a kind after its condition has been judged with this class in force (R150, R152). -/
def judgedState (cls : FaultClass) (present : Bool) (before : Recognised) : Recognised :=
  if present = true ∧ before = .none then stateOfClass cls else before

/-! ## Output blocks (R34, R35) -/

/-- Two contexts play the same block from the same codec state: output mode, j, block, last good block, decoder y_prev,
comfort noise level and generator. -/
def PlaysAs (a b : Context) : Prop :=
  a.output = b.output ∧ a.concealIndex = b.concealIndex ∧ a.block = b.block ∧ a.lastGood = b.lastGood ∧
  a.decY = b.decY ∧ a.noiseLevel = b.noiseLevel ∧ a.noiseGen = b.noiseGen

/-- The choice of a NOISE block: 160 steps of the generator at amplitude 64·L + 32, with 4 for an absent L (R70). -/
def asNoise (c : Context) : Context :=
  { c with
    output := .noise
    block := noiseSamples (64 * c.noiseLevel.getD 4 + 32) 160 c.noiseGen
    noiseGen := noiseAfter 160 c.noiseGen }

/-- The choice of a conceal step: CONCEALED(j + 1) from the last good block, whose last sample the decoder takes; or
MUTED beyond the conceal limit, and from MUTED (R34, R35, R71, R72). -/
def asConcealStep (c : Context) : Context :=
  if c.output = .muted ∨ c.concealLimit < c.concealIndex + 1 then { c with output := .muted }
  else { c with
    output := .concealed
    concealIndex := c.concealIndex + 1
    block := concealedBlock (c.concealIndex + 1) c.lastGood
    decY := (concealedBlock (c.concealIndex + 1) c.lastGood).getLastD 0 }

/-! ## The encoder's own reconstruction (R57) -/

/-- The reconstructions of a subframe, each made from the one before it (R57 step 4). -/
def trackSubframe (b q : Nat) : Int → List Int → List Int
  | _, [] => []
  | y, x :: xs => reconstruct b q y (quantise b q y x) :: trackSubframe b q (reconstruct b q y (quantise b q y x)) xs

/-- The reconstructions of `n` subframes of 40 samples, with the scale of each selected from the input (R55 to R57). -/
def trackBlock (b : Nat) : Nat → Int → Int → List Int → List Int
  | 0, _, _, _ => []
  | n + 1, before, y, xs =>
    let sub := xs.take 40
    let track := trackSubframe b (selectScale b (residualPeak before sub)) y sub
    track ++ trackBlock b n (sub.getLastD before) (track.getLastD y) (xs.drop 40)

/-! ## Orders -/

/-- The order processor is about to take this order: nothing is left of an earlier event, the processor is idle, the
answer slot is free, and the order is the oldest in the buffer (R176). -/
structure OrderReady (s : State) (o : Message) : Prop where
  rest : s.rest = []
  idle : s.ctl.proc = .idle
  free : s.ctl.answer = none
  head : s.ctl.buffer.head? = some o

/-- The order leaves the buffer and its answer, the result code and what follows it, is placed in the answer slot: an
idle transmitter starts it, a busy one does not change (R176, R177). -/
def State.answered (s : State) (o : Message) (r : Result) (more : List Byte) : State :=
  { s with ctl := { s.ctl with
      buffer := s.ctl.buffer.tail
      answer := some ⟨o.kind + 0x80#8, o.tag, byte r.code :: more⟩
      tx := if s.ctl.tx = .idle then .answer else s.ctl.tx } }

/-- One order of the catalogue: its row, its kind, the least and the greatest length of its body, and whether SETUP,
SERVICE and DRAIN admit it (R170, R180). -/
structure OrderRow where
  row : Instr
  kind : Nat
  least : Nat
  greatest : Nat
  setup : Bool
  service : Bool
  drain : Bool
  deriving DecidableEq, Repr

/-- Whether a mode admits the order (R170). -/
def OrderRow.admits (r : OrderRow) : Mode → Bool
  | .setup => r.setup
  | .service => r.service
  | .drain => r.drain

/-- The catalogue of orders, from the tables of R170 and R180. -/
def orderCatalogue : List OrderRow :=
  [⟨.identify, 0x01, 0, 0, true, true, true⟩, ⟨.readStatus, 0x02, 0, 0, true, true, true⟩,
   ⟨.setMode, 0x03, 1, 1, true, true, true⟩, ⟨.setHighway, 0x04, 3, 248, true, false, false⟩,
   ⟨.setProfile, 0x05, 4, 4, true, true, true⟩, ⟨.getProfile, 0x06, 1, 1, true, true, true⟩,
   ⟨.setDevice, 0x07, 3, 3, true, true, true⟩, ⟨.openCall, 0x08, 6, 6, false, true, false⟩,
   ⟨.modify, 0x09, 3, 3, false, true, true⟩, ⟨.close, 0x0A, 1, 1, false, true, true⟩,
   ⟨.query, 0x0B, 1, 1, true, true, true⟩, ⟨.clearFaults, 0x0C, 1, 1, false, true, true⟩,
   ⟨.readHistory, 0x0D, 0, 0, true, true, true⟩, ⟨.clearHistory, 0x0E, 0, 0, true, true, true⟩,
   ⟨.ackNotices, 0x0F, 1, 1, true, true, true⟩, ⟨.restart, 0x10, 0, 0, true, true, true⟩,
   ⟨.setLine, 0x11, 2, 2, true, true, true⟩]

/-- The range of a SET PROFILE field, as its value is coded (R163, R181). -/
def fieldRange (f : Nat) : Int × Int :=
  match f with
  | 0 => (1, 7)
  | 1 => (1, 3)
  | 2 | 3 => (-12, 12)
  | 4 => (1, 4)
  | 5 | 6 => (0, 1200)
  | 7 => (0, 1)
  | 8 => (0, 4095)
  | 9 => (0, 15)
  | 10 => (1, 16)
  | 11 | 12 => (0, 2)
  | 13 => (2, 250)
  | 14 => (1, 50)
  | 15 => (1, 8000)
  | 16 => (5, 100)
  | 17 => (1, 50)
  | n => if n < 25 then (0, 3) else if n < 32 then (1, 250) else (0, 15)

/-- The kinds CLEAR FAULTS returns to NONE: LATCHED or REPORTED with the condition absent, in the order of R146 (R158). -/
def Context.clearedKinds (c : Context) : List FaultKind :=
  allKinds.filter fun k => ((c.fault k).state = .latched || (c.fault k).state = .reported) && !(c.fault k).present

/-- The reports of what CLEAR FAULTS clears in a channel (R158, R160). -/
def Context.clearReports (ch : Chan) (c : Context) : List FaultReport :=
  c.clearedKinds.map fun k => ⟨ch, k, (c.fault k).captured.cls, .cleared⟩

/-- The notices of CLEAR FAULTS of a channel: its CLEARED notices, then CALL ACTIVE where it recovers to ACTIVE (R17,
R158, R160). `c` is the channel before, `d` after. -/
def clearNotices (ch : Chan) (c d : Context) : List NoticeBody :=
  (c.clearReports ch).map FaultReport.notice
    ++ if c.state = .faulted ∧ d.heldByFault = false ∧ c.started = true then [.callActive ch] else []

/-- What CLEAR FAULTS makes of a channel's context: each kind LATCHED or REPORTED with its condition absent returns to
NONE, every other kind stays, and a FAULTED channel left with no kind RETRYING or LATCHED recovers (R156, R158). -/
def Cleared (c c' : Context) : Prop :=
  (∀ k, c'.fault k =
    if ((c.fault k).state = .latched ∨ (c.fault k).state = .reported) ∧ (c.fault k).present = false
    then { c.fault k with state := .none, retryCount := 0, captured := .none } else c.fault k) ∧
  (c.state = .faulted ∧ c'.heldByFault = false → c' = { c with
    faults := c'.faults
    state := if c.started then .active else .aligning
    encY := 0
    decY := 0
    hangCount := 0
    lastKind := .speech
    sidAge := 0 }) ∧
  (c.state ≠ .faulted ∨ c'.heldByFault = true → c' = { c with faults := c'.faults })

/-- A kind is LATCHED or REPORTED (R158). -/
def Context.Holds (c : Context) (k : FaultKind) : Prop := (c.fault k).state = .latched ∨ (c.fault k).state = .reported

/-! ## Profiles (R163) -/

/-- Every field of a profile holds a value inside its range (R163). -/
def Profile.InRange (p : Profile) : Prop :=
  (p.rateSet.l32 ∨ p.rateSet.l24 ∨ p.rateSet.l16) ∧
  (-12 ≤ p.gainUp ∧ p.gainUp ≤ 12) ∧ (-12 ≤ p.gainDn ∧ p.gainDn ≤ 12) ∧
  (1 ≤ p.startDepth ∧ p.startDepth ≤ 4) ∧ p.marginLo ≤ 1200 ∧ p.marginHi ≤ 1200 ∧
  p.vadLevel ≤ 4095 ∧ p.hangover ≤ 15 ∧ (1 ≤ p.concealLimit ∧ p.concealLimit ≤ 16) ∧
  (2 ≤ p.starveCycles ∧ p.starveCycles ≤ 250) ∧ (1 ≤ p.lateLimit ∧ p.lateLimit ≤ 50) ∧
  (1 ≤ p.overloadLimit ∧ p.overloadLimit ≤ 8000) ∧ (5 ≤ p.driftLimit ∧ p.driftLimit ≤ 100) ∧
  (1 ≤ p.missLimit ∧ p.missLimit ≤ 50) ∧
  ∀ k : Fin 7, (1 ≤ p.retryTime[k] ∧ p.retryTime[k] ≤ 250) ∧ p.retryLimit[k] ≤ 15

/-- P0 holds the defaults with its marker clear, and every field of every profile is in its range (R163). -/
def ProfilesInv (s : State) : Prop :=
  s.profiles[(0 : ProfileNo)] = Profile.default ∧ ∀ n : ProfileNo, (s.profiles[n]).InRange

/-! ## The two maps (R2, R30) -/

/-- The tag map and the binding map agree with the contexts: an entry names a channel exactly when that channel is not
FREE and its context holds that tag, or that highway and timeslot (R2, R30). -/
def MapsInv (s : State) : Prop :=
  (∀ (t : Tag) (ch : Chan), s.tagMap[t] = some ch ↔ ∃ c, s.chan[ch] = some c ∧ c.tag = t) ∧
  ∀ (n : SlotNo) (ch : Chan),
    s.hw.bindings[n] = some ch ↔ ∃ c, s.chan[ch] = some c ∧ slotNo c.highway c.timeslot = n

/-! ## The egress side of the link port (R133, R141) -/

/-- A channel is in the transmit queue exactly when its egress slot holds a frame, and once (R133). A transmission is
of the frame in the head channel's slot, for that frame's time, and none is made in DOWN; in UP the transmitter is idle
only with an empty queue (R141, R142). -/
def EgressInv (s : State) : Prop :=
  s.link.txQueue.Nodup ∧ (∀ ch : Chan, ch ∈ s.link.txQueue ↔ (s.link.slots[ch]).isSome) ∧
  (∀ ns, s.link.sending = some ns → s.link.state ≠ .down ∧
    ∃ ch rest sl, s.link.txQueue = ch :: rest ∧ s.link.slots[ch] = some sl ∧ ns = sl.frame.timeNs) ∧
  (s.link.state = .up → s.link.sending = none → s.link.txQueue = [])

/-! ## The control line and the history (R161, R168, R174 to R179) -/

/-- The receiver's count lies in 2..250 and fewer bytes than it are stored (R174). -/
def RxState.Sound : RxState → Prop
  | .hunt => True
  | .count => True
  | .body n got _ _ => 2 ≤ n ∧ n ≤ 250 ∧ got.length < n

/-- The bounds of the control line and the history: at most 4 orders, 32 notices in the order of their levels and 32
records; flag bit 7 clear; the transmitter idle only with nothing to send; the answer slot free while a CLOSE is held,
and full while its answer or a SET LINE's settings wait (R161, R168, R173 to R179). -/
def ControlInv (s : State) : Prop :=
  s.ctl.rx.Sound ∧ s.ctl.buffer.length ≤ 4 ∧ (∀ m ∈ s.ctl.buffer, m.body.length ≤ 248) ∧
  s.ctl.notices.length ≤ 32 ∧ s.ctl.notices.Pairwise (fun a b => b.level ≤ a.level) ∧
  (∀ n ∈ s.ctl.notices, 1 ≤ n.level ∧ n.level ≤ 3) ∧ (∀ k : Fin 7, s.settings.levels[k] ≤ 3) ∧
  s.ctl.flags.getLsbD 7 = false ∧
  (s.ctl.tx = .idle → s.ctl.answer = none ∧ s.ctl.notices = []) ∧ (s.ctl.tx = .answer → s.ctl.answer.isSome) ∧
  (s.ctl.newLine.isSome → s.ctl.answer.isSome) ∧ (∀ g ch, s.ctl.proc = .holding g ch → s.ctl.answer = none) ∧
  s.history.length ≤ 32

/-! ## Fault records (R145, R153, R154, R156) -/

/-- The captured class and the retry count that go with a recognised state (R145, R150, R153, R154): a RETRYING kind
with a nonzero captured limit has a retry count below it. -/
def FaultRecord.Sound (r : FaultRecord) : Prop :=
  match r.state with
  | .none => r.captured = .none ∧ r.retryCount = 0
  | .reported => r.captured = .report ∧ r.retryCount = 0
  | .retrying => ∃ limit, r.captured = .retry limit ∧ (0 < limit → r.retryCount < limit)
  | .latched => r.captured = .latched ∨ ∃ limit, r.captured = .retry limit

/-- The fault records of a channel are sound; a FAULTED channel has a kind RETRYING or LATCHED, and an ALIGNING or
ACTIVE one has none (R156). -/
def Context.FaultsSound (c : Context) : Prop :=
  (∀ k, (c.fault k).Sound) ∧ (c.state = .faulted → c.heldByFault = true) ∧
  (c.state = .aligning ∨ c.state = .active → c.heldByFault = false)

/-- The fault records of every channel that is not FREE are sound. -/
def FaultsInv (s : State) : Prop := ∀ (ch : Chan) (c : Context), s.chan[ch] = some c → c.FaultsSound

/-! ## Jobs and engines (R118, R119, R121, R122) -/

/-- A job is a DECODE job of this channel. -/
def Job.isDecodeOf (ch : Chan) (j : Job) : Bool := j.chan = ch && j.kind = .decode

/-- A job waits in the queue or runs in an engine. -/
def EngineBlock.Holds (eng : EngineBlock) (j : Job) : Prop :=
  j ∈ eng.queue ∨ ∃ (e : EngineNo) (r : Running), eng.engines[e] = some r ∧ r.job = j

/-- The job queue stands in the order of R119; a running job completes its duration after its start and by its
deadline; queue and engines together hold at most one DECODE job for a channel; and no job waits while an engine is
idle (R118, R119, R121, R122). With it stands what keeps a start moved to the next period start inside its deadline: the
local timer expects that start at least 125 µs after the last, and every deadline lies a whole number of such lengths from it
(R23, R25, R27, R117). -/
def EnginesInv (s : State) : Prop :=
  125000 ≤ s.hw.expected ∧ (∀ j, s.eng.Holds j → j.deadline % 125000 = s.hw.periodStart % 125000) ∧
  s.eng.queue.Pairwise (fun a b => b.before a = false) ∧
  (∀ (e : EngineNo) (r : Running), s.eng.engines[e] = some r →
    r.done = r.start + r.job.durationNs ∧ r.done ≤ r.job.deadline) ∧
  (∀ ch : Chan, s.eng.queue.countP (Job.isDecodeOf ch)
    + s.eng.engines.toList.countP (fun r => r.any fun x => x.job.isDecodeOf ch) ≤ 1) ∧
  (s.eng.queue ≠ [] → ∀ e : EngineNo, (s.eng.engines[e]).isSome)

/-! ## The uplink phase and ENCODE jobs (R11, R110, R119) -/

/-- Every uplink boundary falls at the start of the period C = φup (R110). The boundary of a channel is raised exactly
when its block is full. The samples still to gather, counted from the period in progress (and one more period in the one
OPEN is taken in, R7), lead to C = φup; a block has 120 to 200 samples, and a pending adjust moves 1 to 40. The local timer
expects the next period start at least 125 µs after the last (R23, R25). No event is noted ahead twice (log entry 23). -/
def UplinkPhaseInv (s : State) : Prop :=
  125000 ≤ s.hw.expected ∧
  (∀ ch : Chan, .uplink ch ∈ s.due ↔ ∃ c, s.chan[ch] = some c ∧ c.nUp = c.blockLen) ∧ s.ahead.Nodup ∧
  ∀ (ch : Chan) (c : Context), s.chan[ch] = some c →
    c.nUp ≤ c.blockLen ∧ 120 ≤ c.blockLen ∧ c.blockLen ≤ 200 ∧ (c.fresh = true → c.nUp < c.blockLen) ∧
    ((if c.fresh then 1 else 0) + s.hw.c.val + (c.blockLen - c.nUp)) % 160 = c.phiUp.val ∧
    ∀ a, c.adjust = some a → 1 ≤ a.k ∧ a.k ≤ 40

/-- A job is an ENCODE job of this channel. -/
def Job.isEncodeOf (ch : Chan) (j : Job) : Bool := j.chan = ch && j.kind = .encode

/-- A channel has at most one ENCODE job waiting or running, and a FREE channel none (R11, R119). With it stands what makes
it so: the uplink phase and the engines are sound; waiting jobs have their deadlines at this period start or a later one
(R117, R120), and a running job is not a period overdue; and each ENCODE job was made at its channel's last uplink boundary,
n_up periods ago. -/
def EncodeInv (s : State) : Prop :=
  UplinkPhaseInv s ∧ EnginesInv s ∧
  (∀ j ∈ s.eng.queue, s.hw.periodStart ≤ j.deadline) ∧
  (∀ (e : EngineNo) (r : Running), s.eng.engines[e] = some r → s.hw.periodStart ≤ r.done + 125000) ∧
  (∀ ch : Chan, s.eng.queue.countP (Job.isEncodeOf ch)
    + s.eng.engines.toList.countP (fun r => r.any fun x => x.job.isEncodeOf ch) ≤ 1) ∧
  ∀ (ch : Chan) (j : Job), s.eng.Holds j → j.isEncodeOf ch = true →
    ∃ c, s.chan[ch] = some c ∧ c.fresh = false ∧ j.deadline + 125000 * c.nUp = s.hw.periodStart + 4000000

/-! ## Modes and held orders (R9, R169, R170, R176) -/

/-- In SETUP every channel is FREE and in DRAIN some channel is not (R169, R170); and a channel is CLOSING exactly
when the order processor holds its CLOSE (R9, R176). -/
def ModeInv (s : State) : Prop :=
  (s.mode = .setup → ∀ ch : Chan, s.chan[ch] = none) ∧ (s.mode = .drain → ∃ ch : Chan, s.chan[ch] ≠ none) ∧
  (∀ g ch, s.ctl.proc = .holding g ch → ∃ c, s.chan[ch] = some c ∧ c.state = .closing) ∧
  ∀ (ch : Chan) (c : Context), s.chan[ch] = some c → c.state = .closing → ∃ g, s.ctl.proc = .holding g ch

/-! ## The phase bucket table (R128) -/

/-- The counts a channel contributes to a bucket: its downlink count and its uplink count (R128). -/
def bucketShare (b : Bucket) : Option Context → Nat
  | none => 0
  | some c => (if bucketOf c.phiDn = b then 1 else 0) + (if bucketOf c.phiUp = b then 1 else 0)

/-- Each bucket counts the phases of the open channels that lie in it (R128). -/
def BucketsInv (s : State) : Prop :=
  ∀ b : Bucket, s.eng.buckets[b] = (allChannels.map fun ch => bucketShare b s.chan[ch]).sum

/-! ## Playout queues (R76, R77) -/

/-- The entries of a playout queue lie at distances 0..7 from expected, in ascending order of distance, so at most 8
with distinct sequence numbers; before the first frame it is empty; each entry has a rate exactly when it is SPEECH, and
the payload its kind and rate call for (R76, R77). -/
def Context.PlayoutSound (c : Context) : Prop :=
  (c.expected = none → c.queue = []) ∧
  (∀ x, c.expected = some x →
    c.queue.Pairwise (fun a b => seqDistance x a.seq < seqDistance x b.seq) ∧ ∀ e ∈ c.queue, seqDistance x e.seq < 8) ∧
  c.tooEarlyRun ≤ 2 ∧
  ∀ e ∈ c.queue, (e.rate.isSome ↔ e.kind = .speech) ∧ payloadLength e.kind e.rate = some e.payload.length

/-- The playout queue of every channel that is not FREE is sound. -/
def PlayoutInv (s : State) : Prop := ∀ (ch : Chan) (c : Context), s.chan[ch] = some c → c.PlayoutSound

/-! ## Linear samples (R1, R39, R65, R69) -/

/-- A whole number in the range of linear samples (R1). -/
def IsSample (x : Int) : Prop := -32768 ≤ x ∧ x ≤ 32767

/-- The samples of a decoded block that is ready. -/
def BoundaryOutcome.samples : BoundaryOutcome → List Int
  | .decode (.ready b) => b
  | .decode .pending => []
  | .decode .missed => []
  | .decode .withdrawn => []
  | .sid => []
  | .noData => []
  | .missing => []
  | .endFrame => []
  | .none => []

/-- The samples a job carries. -/
def JobInput.linear : JobInput → List Int
  | .samples xs => xs
  | .payload _ => []

/-- Every linear sample a channel holds lies in −32768..32767, the ring holds 200 and the blocks 160 of them, the
comfort noise level is at most 63, and the noise generator is never 0 (R1, R3, R39, R65, R68, R69). -/
def Context.SamplesSound (c : Context) : Prop :=
  (∀ x ∈ c.ring, IsSample x) ∧ c.ring.length = 200 ∧ IsSample c.encY ∧ IsSample c.decY ∧
  (∀ x ∈ c.lastGood, IsSample x) ∧ c.lastGood.length = 160 ∧ (∀ x ∈ c.block, IsSample x) ∧ c.block.length = 160 ∧
  (∀ x ∈ c.outcome.samples, IsSample x) ∧ (∀ b, c.outcome = .decode (.ready b) → b.length = 160) ∧
  (∀ l, c.noiseLevel = some l → l ≤ 63) ∧ c.noiseGen ≠ 0

/-- Every linear sample that a channel, a waiting job or an engine holds lies in range. -/
def SamplesInv (s : State) : Prop :=
  (∀ (ch : Chan) (c : Context), s.chan[ch] = some c → c.SamplesSound) ∧
  (∀ j ∈ s.eng.queue, ∀ x ∈ j.input.linear, IsSample x) ∧
  ∀ (e : EngineNo) (r : Running), s.eng.engines[e] = some r →
    (∀ x ∈ r.job.input.linear, IsSample x) ∧ IsSample r.read.encY ∧ IsSample r.read.decY

/-! ## All of them -/

/-- The state meets every invariant above. -/
def State.Sound (s : State) : Prop :=
  ProfilesInv s ∧ MapsInv s ∧ EgressInv s ∧ ControlInv s ∧ FaultsInv s ∧ EnginesInv s ∧ ModeInv s ∧ BucketsInv s ∧
  PlayoutInv s ∧ SamplesInv s ∧ UplinkPhaseInv s ∧ EncodeInv s

end Sys2Proof.Machine
end

