-- ==== Sys2Proof/Certificates/Slice0/Obligations.lean ====
section
/-! DEFINITION. The statements for the provers. Each says what a command, a shared operation or the machine does, in
the terms of the manual's rules; `s` is the state a command meets and `t` the state it leaves. -/

open Sys2Proof Sys2Proof.Machine

/-! ## The machine -/

/-- A step takes the command at the front of the queue; with nothing waiting the part idles (log entry 4). -/
def Obligations.StepTakesFrontCommand : Prop :=
  (∀ (c : Instr) (rest : List Instr) (s : State),
    s.pending = c :: rest → step s = exec c { s with pending := rest }) ∧
  ∀ s : State, s.pending = [] → step s = .next s

/-- Rows outside their own event. What is left of the event last taken is done before any other command acts, and the
three rows that are such a rest only do it early (log entry 3). A boundary or block start that the next period start
brings is noted, once, and is then the first thing taken there, on the moved clock: an uplink boundary after the sample
write that fills its block, a downlink boundary with its window end and expiries, a block start with its code left to
the period's. That a sender orders it so is the model's choice (log entry 23). A row whose event has neither been raised
nor comes so, is not left to do, or falls neither by this period start nor at this period's end changes nothing (log
entry 2). A pulse that is not good has no effect in LOCKED and HOLDOVER; in LOST it lengthens the period in progress to
end 125 µs after it and sets the good run to 0; that every such pulse does, a second one in the same window and one past
the window too, is the model's reading (log entries 17 and 25). -/
def Obligations.RowsOutsideTheirEvent : Prop :=
  ((∀ (i : Instr) (s : State),
    (∀ a b c, i ≠ .hardwareReset a b c) → (∀ ch, i ≠ .supervisionWindowEnd ch) → (∀ ch, i ≠ .retryTimerExpiry ch) →
    (∀ ch, i ≠ .observationWindowEnd ch) → s.finish.rest = [] ∧ exec i s = exec i s.finish) ∧
  ∀ (i : Instr) (ch : Chan) (s : State),
    (i = .supervisionWindowEnd ch ∨ i = .retryTimerExpiry ch ∨ i = .observationWindowEnd ch) →
    ∃ t, exec i s = .next t ∧ t.finish = s.finish) ∧
  (∀ s : State, s.rest = [] →
    (∀ (i : Instr) (d : Due) (ch : Chan) (comes : Context → Prop),
      (i = .uplinkBoundary ch ∧ d = .uplink ch ∧ comes = fun c => c.fresh = false ∧ c.nUp + 1 = c.blockLen) ∨
      (i = .downlinkBoundary ch ∧ d = .downlink ch ∧ comes = fun c => s.hw.c + 1 = c.phiDn) ∨
      (i = .outputBlockStart ch ∧ d = .blockStart ch ∧ comes = fun c => s.hw.c + 1 = phaseAdd c.phiDn 32) →
      d ∉ s.due →
      ((∃ c, s.chan[ch] = some c ∧ comes c) → d ∉ s.ahead → exec i s = .next { s with ahead := s.ahead ++ [d] }) ∧
      ((¬ ∃ c, s.chan[ch] = some c ∧ comes c) ∨ d ∈ s.ahead → exec i s = .next s)) ∧
    (.loadWindowEnd ∉ s.due → exec .loadWindowEnd s = .next s) ∧
    (∀ ch, exec (.supervisionWindowEnd ch) s = .next s ∧ exec (.retryTimerExpiry ch) s = .next s ∧
      exec (.observationWindowEnd ch) s = .next s) ∧
    (∀ e : EngineNo, s.eng.engines[e] = none → exec (.jobCompletion e) s = .next s) ∧
    (∀ (e : EngineNo) (r : Running), s.eng.engines[e] = some r → s.hw.periodStart + 125000 < r.done →
      exec (.jobCompletion e) s = .next s) ∧
    ∀ (ch : Chan) (kind : JobKind),
      (∀ j ∈ s.eng.queue, j.chan = ch → j.kind = kind → s.hw.periodStart + 125000 < j.deadline) →
      exec (.jobDeadline ch kind) s = .next s) ∧
  (∀ (s v u : State) (tNs : Nat) (codes : HighwayCodes), v = s.atPeriodEnd tNs → u = s.atPeriodStart tNs codes →
    let raising := fun (d : Due) => { v.clockMoved with due := v.due ++ [d] }
    (v.ahead = [] → u = v.clockMoved) ∧
    ∀ (ch : Chan) (c : Context), v.chan[ch] = some c →
      (v.ahead = [.uplink ch] → c.fresh = false → c.nUp + 1 = c.blockLen →
        let law := v.lawOf c
        let code := if v.hw.sync = .lost then idleCode law else codes[slotNo c.highway c.timeslot]
        exec (.uplinkBoundary ch)
          { raising (.uplink ch) with chan := v.chan.set ch (some (c.writeSample law code)) } = .next u) ∧
      (v.ahead = [.downlink ch] → v.hw.c + 1 = c.phiDn →
        ∃ x, exec (.downlinkBoundary ch) (raising (.downlink ch)) = .next x ∧ u = x.finish) ∧
      (v.ahead = [.blockStart ch] → v.hw.c + 1 = phaseAdd c.phiDn 32 →
        exec (.outputBlockStart ch) (raising (.blockStart ch)) = .next (u.sendCode ch))) ∧
  ∀ (s : State) (tNs : Nat) (codes : HighwayCodes), s.rest = [] → ¬ PulseIsGood s tNs →
    exec (.fsyncPulse tNs codes) s = .next
      (if s.hw.sync = .lost then { s with hw := { s.hw with expected := tNs + 125000, goodRun := 0 } } else s)

/-- HARDWARE_RESET gives every piece of state the value the manual states for it, whatever it held, and meets every
invariant stated below; the straps choose the mode, the law of the highways and the line settings. The state after
reset, under any straps, meets those invariants too. The waiting commands are no state of the part and stay, and a
transmission in progress ends with the abort delimiter: the model's choices (log entries 20, 21 and 29). -/
def Obligations.HardwareResetValues : Prop :=
  (∀ start law line : Bool, ∀ r, r = State.resetWith start law line → r.Sound) ∧
  ∀ (start law line : Bool) (s : State), ∃ t, exec (.hardwareReset start law line) s = .next t ∧
    (∀ ch : Chan, t.chan[ch] = none) ∧ (∀ g : Tag, t.tagMap[g] = none) ∧
    (∀ n : SlotNo, t.hw.bindings[n] = none ∧ t.hw.driven[n] = none) ∧
    t.hw.sync = .lost ∧ t.hw.goodRun = 0 ∧ t.hw.missingRun = 0 ∧ t.hw.c = 0 ∧ t.hw.cycle = 0 ∧ t.hw.expected = 125000 ∧
    (∀ h : HighwayNo, (t.hw.records[h]).enabled = true ∧ (t.hw.records[h]).law = (if law then .muLaw else .aLaw) ∧
      ∀ n : Timeslot, (t.hw.records[h]).reserved[n] = false) ∧
    t.eng.queue = [] ∧ (∀ e : EngineNo, t.eng.engines[e] = none) ∧ (∀ b : Bucket, t.eng.buckets[b] = 0) ∧
    t.eng.load = ⟨.normal, 0, 50⟩ ∧
    t.link.state = .down ∧ t.link.receiving = false ∧ t.link.errLength = 0 ∧ t.link.errFormat = 0 ∧
    t.link.errUnknownTag = 0 ∧ t.link.errNotAccepting = 0 ∧ (∀ ch : Chan, t.link.slots[ch] = none) ∧
    t.link.txQueue = [] ∧ t.link.sending = none ∧
    (∀ ch : Chan, t.faultFrames[ch] = 0) ∧ (s.link.sending.isSome → t.link.lastDelimiter = .abortDelimiter) ∧
    t.history = [] ∧ (∀ n : ProfileNo, t.profiles[n] = Profile.default) ∧
    t.settings = ⟨.wrap, 16, #v[3, 1, 2, 2, 1, 2, 1], if line then ⟨.b19200, .even⟩ else ⟨.b115200, .none⟩⟩ ∧
    t.mode = (if start then .service else .setup) ∧
    t.ctl = ⟨.hunt, [], false, .idle, none, [], .idle, 0, none⟩ ∧ t.pending = s.pending ∧ t.Sound

/-! ## Invariants every step keeps -/

/-- Every step keeps P0 at its defaults and every profile field in its range. -/
def Obligations.StepKeepsProfiles : Prop := ∀ s t : State, ProfilesInv s → step s = .next t → ProfilesInv t

/-- Every step keeps the tag map and the binding map in agreement with the channels. -/
def Obligations.StepKeepsMaps : Prop := ∀ s t : State, MapsInv s → step s = .next t → MapsInv t

/-- Every step keeps the transmit queue in agreement with the egress slots. -/
def Obligations.StepKeepsEgress : Prop := ∀ s t : State, EgressInv s → step s = .next t → EgressInv t

/-- Every step keeps the bounds of the control line and of the fault history. -/
def Obligations.StepKeepsControlLine : Prop := ∀ s t : State, ControlInv s → step s = .next t → ControlInv t

/-- Every step keeps the fault records sound: a channel is FAULTED exactly while a kind is RETRYING or LATCHED. -/
def Obligations.StepKeepsFaultRecords : Prop := ∀ s t : State, FaultsInv s → step s = .next t → FaultsInv t

/-- Every step keeps the job queue in its order, every running job inside its deadline, at most one DECODE job per
channel, no job waiting while an engine is idle, and every deadline a whole number of 125 µs from a period start. -/
def Obligations.StepKeepsEngines : Prop := ∀ s t : State, EnginesInv s → step s = .next t → EnginesInv t

/-- Every step keeps SETUP without calls, DRAIN with one, and CLOSING for the channel of the held CLOSE alone. -/
def Obligations.StepKeepsModes : Prop := ∀ s t : State, ModeInv s → step s = .next t → ModeInv t

/-- Every step keeps each phase bucket at the number of phases of open channels in it. -/
def Obligations.StepKeepsBuckets : Prop := ∀ s t : State, BucketsInv s → step s = .next t → BucketsInv t

/-- Every step keeps every playout queue in order within distances 0..7, each entry with its payload. -/
def Obligations.StepKeepsPlayout : Prop := ∀ s t : State, PlayoutInv s → step s = .next t → PlayoutInv t

/-- Every step keeps every linear sample in range and every noise generator off 0. -/
def Obligations.StepKeepsSamples : Prop := ∀ s t : State, SamplesInv s → step s = .next t → SamplesInv t

/-- Every step keeps every uplink boundary at the start of the period C = φup: block length, n_up, C and φup stay in
step, and the boundary is raised exactly when the block is full. -/
def Obligations.StepKeepsUplinkPhase : Prop := ∀ s t : State, UplinkPhaseInv s → step s = .next t → UplinkPhaseInv t

/-- Every step keeps at most one ENCODE job of a channel waiting or running, and none of a FREE channel. -/
def Obligations.StepKeepsOneEncode : Prop := ∀ s t : State, EncodeInv s → step s = .next t → EncodeInv t

/-! ## The highway interface -/

/-- A period start, good or missing: C advances, its wrap raises the device cycle count, the period start moves on by
125 µs on the device time base, the two runs are counted up to 80 and the sync state moves as its table gives. -/
def Obligations.PeriodStartMovesClockAndSync : Prop :=
  ∀ (i : Instr) (good : Bool) (tNs : Nat) (codes : HighwayCodes) (s : State), StartsPeriod i good tNs codes s →
    ∃ t, exec i s = .next t ∧ t.hw.c = s.hw.c + 1 ∧
      t.hw.cycle = (if s.hw.c.val = 159 then s.hw.cycle + 1 else s.hw.cycle) ∧
      t.hw.periodStart = s.hw.periodStart + 125000 ∧ t.hw.expected = 125000 ∧
      t.hw.goodRun = (if good then min 80 (s.hw.goodRun + 1) else 0) ∧
      t.hw.missingRun = (if good then 0 else min 80 (s.hw.missingRun + 1)) ∧
      t.hw.sync = (match s.hw.sync with
        | .locked => if 4 ≤ t.hw.missingRun then .holdover else .locked
        | .holdover => if 16 ≤ t.hw.goodRun then .locked else if 80 ≤ t.hw.missingRun then .lost else .holdover
        | .lost => if 16 ≤ t.hw.goodRun then .locked else .lost) ∧
      t.hw.records = s.hw.records ∧ t.settings = s.settings ∧ t.freeCount = s.freeCount ∧ t.pending = s.pending ∧
      t.link.state = s.link.state ∧ t.link.receiving = s.link.receiving ∧ t.link.errLength = s.link.errLength ∧
      t.link.errFormat = s.link.errFormat ∧ t.link.errUnknownTag = s.link.errUnknownTag ∧
      t.link.errNotAccepting = s.link.errNotAccepting ∧ t.ctl.rx = s.ctl.rx ∧ t.ctl.buffer = s.ctl.buffer ∧
      t.ctl.overrun = s.ctl.overrun ∧ t.ctl.newLine = s.ctl.newLine

/-- At a period start each channel's received code, or the idle code after a LOST period, is expanded, gained and
written into its ring, n_up rises by one and a clamp is counted; a channel opened in the period that ends gets no write.
The uplink boundary is raised when the block is full, the downlink boundary at C = φdn, the output block start 32
periods later, and the load window end at the wrap that ends it. `u` is the state in which the period start does this:
what was left of the period has been done, and the events commanded ahead taken, after which an uplink boundary's sample
is already written and no event is raised twice (log entries 2, 3 and 23). -/
def Obligations.PeriodStartWritesSamples : Prop :=
  ∀ (i : Instr) (good : Bool) (tNs : Nat) (codes : HighwayCodes) (s u : State), StartsPeriod i good tNs codes s →
    u = s.atPeriodStart tNs codes →
    ∃ t, exec i s = .next t ∧
      (∀ ch : Chan, u.chan[ch] = none → t.chan[ch] = none) ∧
      (∀ (ch : Chan) (c : Context), u.chan[ch] = some c → ∃ c', t.chan[ch] = some c' ∧
      c'.fresh = (if .uplink ch ∈ u.ahead then c.fresh else false) ∧
        (c.fresh = true ∨ .uplink ch ∈ u.ahead → c'.ring = c.ring ∧ c'.nUp = c.nUp ∧ c'.satUpWin = c.satUpWin ∧
        c'.stats.satUp = c.stats.satUp) ∧
        (c.fresh = false → .uplink ch ∉ u.ahead →
          let law := (u.hw.records[c.highway]).law
          let x := expand law (if u.hw.sync = .lost then idleCode law else codes[slotNo c.highway c.timeslot])
          c'.ring = (gainSample c.gainUp x :: c.ring).take 200 ∧ c'.nUp = c.nUp + 1 ∧
          c'.satUpWin = (if gainClamps c.gainUp x then min 8000 (c.satUpWin + 1) else c.satUpWin) ∧
          c'.stats.satUp = (if gainClamps c.gainUp x then min 65535 (c.stats.satUp + 1) else c.stats.satUp)) ∧
        (.uplink ch ∈ t.due ↔
          .uplink ch ∈ u.due ∨ .uplink ch ∉ u.ahead ∧ c.fresh = false ∧ c.nUp + 1 = c.blockLen) ∧
        (.downlink ch ∈ t.due ↔ .downlink ch ∈ u.due ∨ .downlink ch ∉ u.ahead ∧ t.hw.c = c.phiDn) ∧
        (.blockStart ch ∈ t.due ↔ .blockStart ch ∈ u.due ∨ .blockStart ch ∉ u.ahead ∧ t.hw.c = phaseAdd c.phiDn 32)) ∧
      t.ahead = [] ∧
      t.eng.load.wraps = (if s.hw.c.val = 159 then u.eng.load.wraps - 1 else u.eng.load.wraps) ∧
      (.loadWindowEnd ∈ t.due ↔ .loadWindowEnd ∈ u.due ∨ s.hw.c.val = 159 ∧ u.eng.load.wraps ≤ 1)

/-- At a period start each channel's code is computed and driven in its timeslot unless the sync state is LOST: the idle
code for an IDLE or MUTED block, otherwise the block's sample of this period, gained by the gain down held at this start
and compressed, with a clamp counted. Its code is left to its output block start where that falls now, and its timeslot
is left undriven where its close completes now; a timeslot of no channel is left undriven. Leaving the code of those two
periods to the later event is the model's choice (log entry 13). `u` is the state in which the period start does this,
with the events commanded ahead taken (log entry 23). -/
def Obligations.PeriodStartSendsCodes : Prop :=
  ∀ (i : Instr) (good : Bool) (tNs : Nat) (codes : HighwayCodes) (s u : State), StartsPeriod i good tNs codes s →
    u = s.atPeriodStart tNs codes →
    ∃ t, exec i s = .next t ∧
      (∀ n : SlotNo, (∀ (d : Chan) (cd : Context), u.chan[d] = some cd → slotNo cd.highway cd.timeslot ≠ n) →
        t.hw.driven[n] = none) ∧
      ∀ (ch : Chan) (c : Context), u.chan[ch] = some c →
        (∀ (d : Chan) (cd : Context), u.chan[d] = some cd →
          slotNo cd.highway cd.timeslot = slotNo c.highway c.timeslot → d = ch) →
        ∃ c', t.chan[ch] = some c' ∧ c'.gainNow = c.gainDn ∧
          let waits := .blockStart ch ∈ t.due ∨ c.state = .closing ∧ .uplink ch ∈ t.due
          let law := (u.hw.records[c.highway]).law
          let idle := c.output = .idle ∨ c.output = .muted
          let x := c.block.getD ((t.hw.c.val + 160 - (c.phiDn.val + 32) % 160) % 160) 0
          t.hw.driven[slotNo c.highway c.timeslot] =
            (if waits ∨ t.hw.sync = .lost then none
             else some (if idle then idleCode law else compress law (gainSample c.gainDn x))) ∧
          c'.satDnWin = (if ¬ waits ∧ ¬ idle ∧ gainClamps c.gainDn x then min 8000 (c.satDnWin + 1) else c.satDnWin) ∧
          c'.stats.satDn =
            (if ¬ waits ∧ ¬ idle ∧ gainClamps c.gainDn x then min 65535 (c.stats.satDn + 1) else c.stats.satDn)

/-- A change of the sync state at a period start generates a SYNC notice. Entering LOST finds HIGHWAY present in every
channel that is neither FREE nor CLOSING, with its recognition, notice and record; leaving LOST sets it absent; at any
other period start no condition, notice or record moves. That the SYNC notice comes first and the channels follow in
ascending order is the model's choice (log entry 24). `u` is the state in which the period start does this, with the
events commanded ahead taken (log entry 23). -/
def Obligations.SyncChangeFindsHighway : Prop :=
  ∀ (i : Instr) (good : Bool) (tNs : Nat) (codes : HighwayCodes) (s u : State), StartsPeriod i good tNs codes s →
    u = s.atPeriodStart tNs codes →
    ∃ t, exec i s = .next t ∧
      let entered := u.hw.sync ≠ .lost ∧ t.hw.sync = .lost
      let left := u.hw.sync = .lost ∧ t.hw.sync ≠ .lost
      let base : State := { u with hw := t.hw }
      let reports := if entered then base.raisedByAll .highway else []
      t.ctl = (base.notifyAll ((if t.hw.sync = u.hw.sync then [] else [.syncState t.hw.sync])
        ++ reports.map FaultReport.notice)).ctl ∧
      t.history = base.historyAfter reports ∧
      ∀ (ch : Chan) (c : Context), u.chan[ch] = some c → ∃ c', t.chan[ch] = some c' ∧
        (c.state = .closing → c'.state = .closing ∧ c'.faults = c.faults) ∧
        (c.state ≠ .closing →
          let before := c.fault .highway
          let cls := (u.profileOf c).cls[FaultKind.highway.index]
          (∀ k, k ≠ .highway → c'.fault k = c.fault k) ∧
          (c'.fault .highway).present = (if entered then true else if left then false else before.present) ∧
          (c'.fault .highway).state = judgedState cls entered before.state ∧
          c'.state = (if entered ∧ before.state = .none ∧ (cls = .retry ∨ cls = .latched) then .faulted else c.state))

/-! ## The uplink boundary and placements -/

/-- An uplink boundary in ALIGNING or ACTIVE settles the rate against RATE_SET, submits an ENCODE job of the 161 most
recent samples with its deadline 4000 µs later, applies a pending adjust or sets the next length to 160, and sets n_up
to 0. The lowest idle engine starts the job at once; with none idle it waits at its place. (No job waits while an engine
is idle: StepKeepsEngines.) That the adjust changes the block that begins now also where a RETARD block ends here is the
model's reading (log entry 34). -/
def Obligations.UplinkBoundarySubmitsEncode : Prop :=
  ∀ (s : State) (ch : Chan) (c : Context), s.rest = [] → .uplink ch ∈ s.due → s.chan[ch] = some c →
    (c.state = .aligning ∨ c.state = .active) → (s.eng.queue = [] ∨ s.eng.idleEngine = none) →
    let rate := (s.profileOf c).rateSet.settle (c.rateReq.getD c.upRate)
    let j : Job := ⟨ch, .encode, rate, s.hw.periodStart + 4000000, .samples (c.ring.take 161).reverse⟩
    let moved : Context := match c.adjust with
      | none => { c with blockLen := 160 }
      | some a => { c with
          adjust := none
          upEcho := a.token
          phiUp := match a.dir with
            | .advance => phaseSub c.phiUp a.k
            | .retard => phaseAdd c.phiUp a.k
          blockLen := match a.dir with
            | .advance => 160 - a.k
            | .retard => 160 + a.k
          stats := { c.stats with adjustsApplied := min 65535 (c.stats.adjustsApplied + 1) } }
    ∃ t, exec (.uplinkBoundary ch) s = .next t ∧
      t = { s with chan := t.chan, eng := t.eng, due := s.due.filter fun d => d ≠ .uplink ch } ∧
      t.chan = s.chan.set ch (some { moved with upRate := rate, rateReq := none, nUp := 0 }) ∧
      t.eng.buckets = moveBucket (bucketOf c.phiUp) (bucketOf moved.phiUp) s.eng.buckets ∧ t.eng.load = s.eng.load ∧
      (∀ e, s.eng.idleEngine = some e → t.eng.queue = [] ∧ t.eng.engines = s.eng.engines.set e
        (some ⟨j, s.hw.periodStart, s.hw.periodStart + jobDurationNs .encode rate, false, s.codecRead ch⟩)) ∧
      (s.eng.idleEngine = none → t.eng.queue = insertJob j s.eng.queue ∧ t.eng.engines = s.eng.engines)

/-- An uplink boundary in FAULTED submits no job and touches no codec field: it places the frame OUT_UP and the fault
frame count call for, or none for SILENT, and the count advances modulo 8. The rate is settled against RATE_SET as at
every boundary. A pending adjust is applied, and the frame carries its echo, as R107 says; that R143, which fills a
frame at its placement, leaves this to R107 at the one instant of the boundary is the model's reading (log entry 31).
That the adjust changes the block that begins now also where a RETARD block ends here is the model's reading (log entry
34). The frame takes its slot, its place in the transmit queue and its sequence number as every frame does, and raises
the drift count where it carries a timing request; DRIFT is found present, with its notice and record, where that
reaches DRIFT_LIMIT. -/
def Obligations.UplinkBoundaryInFaulted : Prop :=
  ∀ (s : State) (ch : Chan) (c : Context), s.rest = [] → .uplink ch ∈ s.due → s.chan[ch] = some c →
    c.state = .faulted →
    let out := (s.profileOf c).outUp
    let echo := match c.adjust with
      | some a => a.token
      | none => c.upEcho
    let f : Frame :=
      if out = .sid ∧ s.faultFrames[ch] = 0 then { s.fillFrame c .sid none [0] with echo := echo }
      else { s.fillFrame c .noData none [] with echo := echo }
    let finds := out ≠ .silent ∧ c.request.isSome ∧ (s.profileOf c).driftLimit ≤ min 100 (c.drift + 1)
    let reports := if finds then s.raisedBy .drift ch c else []
    ∃ t c', exec (.uplinkBoundary ch) s = .next t ∧ t.chan[ch] = some c' ∧ KeepsSetting s t ∧ OthersKept ch s t ∧
      t.due = s.due.filter (fun d => d ≠ .uplink ch) ∧ t.rest = [] ∧
      c'.upRate = (s.profileOf c).rateSet.settle (c.rateReq.getD c.upRate) ∧ c'.rateReq = none ∧
      c'.state = .faulted ∧ t.faultFrames = s.faultFrames.set ch ((s.faultFrames[ch] + 1) % 8) ∧ c'.nUp = 0 ∧
      c'.ring = c.ring ∧ c'.upEcho = echo ∧ c'.adjust = none ∧
      (c.adjust = none → c'.phiUp = c.phiUp ∧ c'.blockLen = 160 ∧
        c'.stats.adjustsApplied = c.stats.adjustsApplied) ∧
      (∀ a, c.adjust = some a → c'.phiUp = (match a.dir with
          | .advance => phaseSub c.phiUp a.k
          | .retard => phaseAdd c.phiUp a.k) ∧
        c'.blockLen = (match a.dir with
          | .advance => 160 - a.k
          | .retard => 160 + a.k) ∧
        c'.stats.adjustsApplied = min 65535 (c.stats.adjustsApplied + 1)) ∧
      c'.encY = c.encY ∧ c'.hangCount = c.hangCount ∧ c'.lastKind = c.lastKind ∧ c'.sidAge = c.sidAge ∧ PlaysAs c' c ∧
      t.eng.queue = s.eng.queue ∧ t.eng.engines = s.eng.engines ∧ t.eng.load = s.eng.load ∧
      t.eng.buckets = moveBucket (bucketOf c.phiUp) (bucketOf c'.phiUp) s.eng.buckets ∧
      t.ctl = (s.notifyAll (reports.map FaultReport.notice)).ctl ∧ t.history = s.historyAfter reports ∧
      (∀ k, k ≠ .drift → c'.fault k = c.fault k) ∧
      (¬ finds → c'.fault .drift = c.fault .drift) ∧
      (finds → (c'.fault .drift).present = true ∧ (c'.fault .drift).state =
        judgedState (s.profileOf c).cls[FaultKind.drift.index] true (c.fault .drift).state) ∧
      (out = .silent → t.link = s.link ∧ c'.upSeq = c.upSeq ∧ c'.stats.framesOut = c.stats.framesOut ∧
        c'.drift = c.drift ∧ c'.stats.egressOverruns = c.stats.egressOverruns) ∧
      (out ≠ .silent → t.link.slots = s.link.slots.set ch (some ⟨f, false⟩) ∧ c'.upSeq = c.upSeq + 1 ∧
        c'.stats.framesOut = min 65535 (c.stats.framesOut + 1) ∧
        c'.drift = (if c.request.isSome then min 100 (c.drift + 1) else c.drift) ∧
        c'.stats.egressOverruns = (match s.link.slots[ch] with
          | some ⟨_, false⟩ => min 65535 (c.stats.egressOverruns + 1)
          | _ => c.stats.egressOverruns) ∧
        t.link.txQueue = (if (s.link.slots[ch]).isSome then s.link.txQueue else s.link.txQueue ++ [ch]) ∧
        (s.link.sending.isSome → (s.link.slots[ch]).isSome → s.link.txQueue.head? = some ch →
          t.link.lastDelimiter = .abortDelimiter ∧
          t.link.sending = (if s.link.state = .up then some ((7 + f.payload.length + 12) * 80) else none)) ∧
        (s.link.sending.isSome → s.link.txQueue.head? ≠ some ch →
          t.link.sending = s.link.sending ∧ t.link.lastDelimiter = s.link.lastDelimiter) ∧
        (s.link.sending = none → s.link.txQueue = [] → s.link.slots[ch] = none →
          t.link.lastDelimiter = s.link.lastDelimiter ∧
          t.link.sending = (if s.link.state = .up then some ((7 + f.payload.length + 12) * 80) else none)))

/-- An uplink boundary in CLOSING completes the close: the END frame is placed, the channel's waiting jobs leave and its
running ones are marked, the tag, the timeslot and both bucket counts are released, the channel is FREE, and the held
CLOSE is answered OK with the 16 counters as they stand after the placement. In DRAIN with no other call the mode becomes
SETUP, with a CONFIG notice MODE; there is no other notice. -/
def Obligations.UplinkBoundaryCompletesClose : Prop :=
  ∀ (s : State) (ch : Chan) (c : Context) (g : Byte), s.rest = [] → .uplink ch ∈ s.due → s.chan[ch] = some c →
    c.state = .closing → s.ctl.proc = .holding g ch →
    let n := slotNo c.highway c.timeslot
    let st : Stats := { c.stats with
      framesOut := min 65535 (c.stats.framesOut + 1)
      egressOverruns := match s.link.slots[ch] with
        | some ⟨_, false⟩ => min 65535 (c.stats.egressOverruns + 1)
        | _ => c.stats.egressOverruns }
    let drained := s.mode = .drain ∧ ∀ d : Chan, d ≠ ch → s.chan[d] = none
    let answered : ControlLine := { s.ctl with
      proc := .idle
      answer := some ⟨0x8A, g, 0 :: st.bytes⟩
      tx := if s.ctl.tx = .idle then .answer else s.ctl.tx }
    ∃ t, exec (.uplinkBoundary ch) s = .next t ∧ t.chan = s.chan.set ch none ∧ t.tagMap = s.tagMap.set c.tag none ∧
      t.hw = { s.hw with bindings := s.hw.bindings.set n none, driven := s.hw.driven.set n none } ∧
      t.link.slots = s.link.slots.set ch (some ⟨s.fillFrame c .endCall none [], false⟩) ∧
      t.link.txQueue = (if (s.link.slots[ch]).isSome then s.link.txQueue else s.link.txQueue ++ [ch]) ∧
      t.eng.queue = s.eng.queue.filter (fun j => j.chan ≠ ch) ∧
      (∀ e : EngineNo, t.eng.engines[e] =
        (s.eng.engines[e]).map fun r => if r.job.chan = ch then { r with marked := true } else r) ∧
      t.eng.buckets = lowerBucket (bucketOf c.phiUp) (lowerBucket (bucketOf c.phiDn) s.eng.buckets) ∧
      t.eng.load = s.eng.load ∧ t.faultFrames = s.faultFrames ∧
      (drained → t.mode = .setup ∧
        t.ctl = answered.generate ⟨s.settings.levels[(4 : Fin 7)], s.hw.cycle, .configMode .setup⟩) ∧
      (¬ drained → t.mode = s.mode ∧ t.ctl = answered) ∧
      t.profiles = s.profiles ∧ t.settings = s.settings ∧ t.history = s.history ∧ t.pending = s.pending ∧
      ∀ d, (d ∈ t.due ↔ d ∈ s.due ∧ d ≠ .uplink ch ∧ d ≠ .downlink ch ∧ d ≠ .blockStart ch) ∧
        (d ∈ t.ahead ↔ d ∈ s.ahead ∧ d ≠ .uplink ch ∧ d ≠ .downlink ch ∧ d ≠ .blockStart ch)

/-- Placing an uplink frame fills its header from the context at that instant, takes one sequence number and counts
frames_out; an empty slot's channel joins the transmit queue, a full one keeps its place, an untransmitted frame of the
current call counts an egress overrun, and the transmission of a replaced frame is ended with the abort delimiter and, in
UP, followed at once by the new one. A frame that carries a timing request raises the drift count, and DRIFT is found
present where it reaches the profile's DRIFT_LIMIT. -/
def Obligations.PlacementFillsSlotAndHeader : Prop :=
  ∀ (s t : State) (ch : Chan) (c : Context) (kind : FrameKind) (rate : Option Rate) (payload : List Byte),
    s.chan[ch] = some c → t = s.placeFrame ch kind rate payload →
    let f : Frame := ⟨kind, c.tag, c.upSeq, rate, (s.profileOf c).rateSet.highest, c.request, c.upEcho, payload⟩
    let counted : Context := { c with
      upSeq := c.upSeq + 1
      drift := if c.request.isSome then min 100 (c.drift + 1) else c.drift
      stats := { c.stats with
        framesOut := min 65535 (c.stats.framesOut + 1)
        egressOverruns := match s.link.slots[ch] with
          | some ⟨_, false⟩ => min 65535 (c.stats.egressOverruns + 1)
          | _ => c.stats.egressOverruns } }
    let placed : State := { s with chan := s.chan.set ch (some counted), link := t.link }
    KeepsSetting s t ∧ OthersKept ch s t ∧ t.due = s.due ∧ t.rest = s.rest ∧ t.hw = s.hw ∧
      t.link.slots = s.link.slots.set ch (some ⟨f, false⟩) ∧
      t.link.txQueue = (if (s.link.slots[ch]).isSome then s.link.txQueue else s.link.txQueue ++ [ch]) ∧
      (∃ c', t.chan[ch] = some c' ∧ c'.upSeq = counted.upSeq ∧ c'.drift = counted.drift ∧ c'.stats = counted.stats) ∧
      t = (if c.request.isSome ∧ (s.profileOf c).driftLimit ≤ min 100 (c.drift + 1)
        then State.findPresent ch .drift placed else placed) ∧
      (s.link.sending.isSome → (s.link.slots[ch]).isSome → s.link.txQueue.head? = some ch →
        t.link.lastDelimiter = .abortDelimiter ∧
        t.link.sending = (if s.link.state = .up then some ((7 + payload.length + 12) * 80) else none)) ∧
      (s.link.sending.isSome → s.link.txQueue.head? ≠ some ch →
        t.link.sending = s.link.sending ∧ t.link.lastDelimiter = s.link.lastDelimiter) ∧
      (s.link.sending = none → s.link.txQueue = [] → s.link.slots[ch] = none →
        t.link.lastDelimiter = s.link.lastDelimiter ∧
        t.link.sending = (if s.link.state = .up then some ((7 + payload.length + 12) * 80) else none))

/-! ## The downlink boundary and supervision -/

/-- A downlink boundary whose head is not a SPEECH frame taken: playout starts at the start depth; in PLAYING expected
advances by one and the expected head is served by its kind, or missing is counted; in WAITING nothing advances. The
notices generated are CALL ACTIVE where the start takes the call out of ALIGNING and, after it, CALL FAR_END where the
head is END; there is no other. `u` is the state after the starvation judgement, `d` the channel in it. -/
def Obligations.DownlinkBoundaryPlaysHead : Prop :=
  ∀ (s u : State) (ch : Chan) (c d : Context), s.rest = [] → .downlink ch ∈ s.due → s.chan[ch] = some c →
    c.state ≠ .closing → u = State.raiseStarvation ch { s with due := s.due.filter fun x => x ≠ .downlink ch } →
    u.chan[ch] = some d →
    let starts := d.playout = .waiting ∧ d.startDepth ≤ d.queue.length
    let plays := d.playout = .playing ∨ starts
    let active : List NoticeBody := if starts ∧ d.state = .aligning then [.callActive ch] else []
    (plays → ∀ e r, d.queue = e :: r → d.expected = some e.seq → e.kind ≠ .speech) →
    ∃ t c', exec (.downlinkBoundary ch) s = .next t ∧ t.chan[ch] = some c' ∧ KeepsSetting s t ∧ OthersKept ch s t ∧
      t.due = s.due.filter (fun x => x ≠ .downlink ch) ∧ t.link = s.link ∧ t.eng = u.eng ∧ t.history = u.history ∧
      c'.state = (if starts ∧ d.state = .aligning then .active else d.state) ∧
      c'.playout = (if plays then .playing else .waiting) ∧ c'.started = (if starts then true else d.started) ∧
      c'.output = c.output ∧ c'.ring = c.ring ∧ c'.nUp = c.nUp ∧
      ((¬ ∃ e r, plays ∧ d.queue = e :: r ∧ d.expected = some e.seq ∧ e.kind = .endCall) →
        t.ctl = (u.notifyAll active).ctl) ∧
      (¬ plays → c'.queue = d.queue ∧ c'.expected = d.expected ∧ c'.stats.missing = c.stats.missing ∧
        c'.outcome = (if d.state = .active then .missing else .none)) ∧
      (plays → (∀ e r, d.queue = e :: r → d.expected ≠ some e.seq) →
        c'.queue = d.queue ∧ c'.expected = d.expected.map (· + 1) ∧
        c'.stats.missing = min 65535 (c.stats.missing + 1) ∧ c'.outcome = .missing) ∧
      (plays → ∀ e r, d.queue = e :: r → d.expected = some e.seq →
        c'.queue = r ∧ c'.expected = some (e.seq + 1) ∧ c'.stats.missing = c.stats.missing ∧
        (e.kind = .sid → c'.outcome = .sid ∧ c'.decY = 0 ∧
          c'.noiseLevel = some (min 63 ((e.payload.map BitVec.toNat).headD 0))) ∧
        (e.kind = .noData → c'.outcome = .noData ∧ c'.decY = d.decY ∧ c'.noiseLevel = d.noiseLevel) ∧
        (e.kind = .endCall → c'.outcome = .endFrame ∧ c'.decY = d.decY ∧ c'.noiseLevel = d.noiseLevel ∧
          t.ctl = (u.notifyAll (active ++ [.callFarEnd ch])).ctl))

/-- A downlink boundary that takes a SPEECH head: in FAULTED it is dropped and counted; else, with no DECODE job of the
channel still held, a DECODE job of its rate and payload with its deadline 4000 µs later is started by the lowest idle
engine or waits at its place; with one still held the boundary is a miss, counted once in its three places. The notices
generated are CALL ACTIVE where playout starts a call in ALIGNING and, after it, LOAD OVERLOADED where the miss brings the
load window to its limit; there is no other, and no record. (No job waits while an engine is idle: StepKeepsEngines.) -/
def Obligations.DownlinkBoundaryServesSpeech : Prop :=
  ∀ (s u : State) (ch : Chan) (c d : Context) (e : QueueEntry) (r : List QueueEntry) (rate : Rate),
    s.rest = [] → .downlink ch ∈ s.due → s.chan[ch] = some c → c.state ≠ .closing →
    (s.eng.queue = [] ∨ s.eng.idleEngine = none) →
    u = State.raiseStarvation ch { s with due := s.due.filter fun x => x ≠ .downlink ch } → u.chan[ch] = some d →
    (d.playout = .playing ∨ d.startDepth ≤ d.queue.length) → d.queue = e :: r → d.expected = some e.seq →
    e.kind = .speech → e.rate = some rate →
    let j : Job := ⟨ch, .decode, rate, s.hw.periodStart + 4000000, .payload e.payload⟩
    let active : List NoticeBody := if d.playout = .waiting ∧ d.state = .aligning then [.callActive ch] else []
    let overloads := d.state ≠ .faulted ∧ u.eng.holdsJob ch .decode = true ∧ u.eng.load.state = .normal ∧
      u.settings.loadLimit ≤ u.eng.load.misses + 1
    ∃ t c', exec (.downlinkBoundary ch) s = .next t ∧ t.chan[ch] = some c' ∧ KeepsSetting s t ∧ OthersKept ch s t ∧
      t.due = s.due.filter (fun x => x ≠ .downlink ch) ∧ t.link = s.link ∧
      c'.queue = r ∧ c'.expected = some (e.seq + 1) ∧ c'.playout = .playing ∧ c'.decY = d.decY ∧
      c'.stats.missing = c.stats.missing ∧ t.history = u.history ∧
      t.ctl = (u.notifyAll (active ++ if overloads then [.loadState .overloaded] else [])).ctl ∧
      (d.state = .faulted → c'.outcome = .none ∧ t.eng = u.eng ∧
        c'.stats.discardedInFault = min 65535 (c.stats.discardedInFault + 1)) ∧
      (d.state ≠ .faulted → c'.state = (if d.playout = .waiting then .active else d.state) ∧
        c'.stats.discardedInFault = c.stats.discardedInFault ∧
        (u.eng.holdsJob ch .decode = true → c'.outcome = .decode .missed ∧
          c'.stats.decMiss = min 65535 (c.stats.decMiss + 1) ∧ c'.missWin = min 50 (c.missWin + 1) ∧
          t.eng.load.misses = u.eng.load.misses + 1 ∧ t.eng.queue = u.eng.queue ∧ t.eng.engines = u.eng.engines) ∧
        (u.eng.holdsJob ch .decode = false → c'.outcome = .decode .pending ∧ c'.stats.decMiss = c.stats.decMiss ∧
          t.eng.load = u.eng.load ∧
          (∀ n, u.eng.idleEngine = some n → t.eng.queue = [] ∧ t.eng.engines = u.eng.engines.set n
            (some ⟨j, s.hw.periodStart, s.hw.periodStart + jobDurationNs .decode rate, false, u.codecRead ch⟩)) ∧
          (u.eng.idleEngine = none → t.eng.queue = insertJob j u.eng.queue ∧ t.eng.engines = u.eng.engines)))

/-- The supervision of a downlink boundary: the starvation count rises to at most 255 and STARVATION is judged; the
window position moves, and its 50th boundary leaves a window end to do; the timers that were RETRYING before the
boundary fall by one, and a timer at 0 leaves an expiry to do. In CLOSING the boundary only hands on the outcome NONE.
(No job waits while an engine is idle: StepKeepsEngines.) -/
def Obligations.DownlinkBoundarySupervises : Prop :=
  ∀ (s : State) (ch : Chan) (c : Context), s.rest = [] → .downlink ch ∈ s.due → s.chan[ch] = some c →
    (c.state = .closing → exec (.downlinkBoundary ch) s = .next { s with
      chan := s.chan.set ch (some { c with outcome := .none })
      due := s.due.filter fun x => x ≠ .downlink ch }) ∧
    (c.state ≠ .closing → (s.eng.queue = [] ∨ s.eng.idleEngine = none) →
      let starved := decide ((s.profileOf c).starveCycles ≤ min 255 (c.starvation + 1))
      ∃ t c', exec (.downlinkBoundary ch) s = .next t ∧ t.chan[ch] = some c' ∧
        c'.starvation = min 255 (c.starvation + 1) ∧ (c'.fault .starvation).present = starved ∧
        (c'.fault .starvation).state =
          judgedState (s.profileOf c).cls[FaultKind.starvation.index] starved (c.fault .starvation).state ∧
        (∀ k, k ≠ .starvation → (c'.fault k).state = (c.fault k).state ∧ (c'.fault k).present = (c.fault k).present) ∧
        (∀ k, (c.fault k).state = .retrying → (c'.fault k).remaining = (c.fault k).remaining - 1) ∧
        c'.window = some (match c.window with
          | none => 0
          | some p => if p + 1 = 50 then 0 else p + 1) ∧
        (.supervisionWindow ch ∈ t.rest ↔ c.window = some 49) ∧
        (.retryExpiry ch ∈ t.rest ↔ ∃ k, (c'.fault k).state = .retrying ∧ (c'.fault k).remaining = 0))

/-- The end of a supervision window judges OVERLOAD from the sum of the two saturation counts and DEADLINE from the miss
count, each against its limit as the profile then holds it, and sets the three counts to 0. The notice and record of an
OVERLOAD come before those of a DEADLINE found with it: the model's choice (log entry 32). -/
def Obligations.SupervisionWindowEndJudges : Prop :=
  ∀ (s : State) (ch : Chan) (c : Context) (r : List Rest), s.rest = .supervisionWindow ch :: r →
    s.chan[ch] = some c → c.state ≠ .closing →
    let p := s.profileOf c
    let overloaded := decide (p.overloadLimit ≤ c.satUpWin + c.satDnWin)
    let late := decide (p.missLimit ≤ c.missWin)
    let reports := (if overloaded then s.raisedBy .overload ch c else []) ++ if late then s.raisedBy .deadline ch c else []
    ∃ t c', exec (.supervisionWindowEnd ch) s = .next t ∧ t.chan[ch] = some c' ∧ KeepsSetting s t ∧ OthersKept ch s t ∧
      t.rest = r ∧ t.due = s.due ∧ t.link = s.link ∧ t.hw = s.hw ∧
      c'.satUpWin = 0 ∧ c'.satDnWin = 0 ∧ c'.missWin = 0 ∧ c'.stats = c.stats ∧ c'.window = c.window ∧
      t.history = s.historyAfter reports ∧ t.ctl = (s.notifyAll (reports.map FaultReport.notice)).ctl ∧
      (c'.fault .overload).present = overloaded ∧
      (c'.fault .overload).state = judgedState p.cls[FaultKind.overload.index] overloaded (c.fault .overload).state ∧
      (c'.fault .deadline).present = late ∧
      (c'.fault .deadline).state = judgedState p.cls[FaultKind.deadline.index] late (c.fault .deadline).state ∧
      ∀ k, k ≠ .overload → k ≠ .deadline → c'.fault k = c.fault k

/-- Each expired kind of a FAULTED channel returns to NONE where its condition is absent; where it is present the retry
count rises, and the kind escalates to LATCHED at a nonzero captured limit or restarts at the profile's retry time. Other
kinds are untouched, and the channel recovers, its predictors and DTX state reset, exactly when no kind is left RETRYING
or LATCHED. The CLEARED and ESCALATED notices and records stand in the order of the kinds, then CALL ACTIVE where the
channel recovers to ACTIVE. -/
def Obligations.RetryTimerExpiryActs : Prop :=
  ∀ (s : State) (ch : Chan) (c : Context) (r : List Rest), s.rest = .retryExpiry ch :: r → s.chan[ch] = some c →
    c.state = .faulted →
    let expired := fun k => (c.fault k).state = .retrying ∧ (c.fault k).remaining = 0
    let limited := fun k =>
      0 < (c.fault k).captured.limit ∧ (c.fault k).captured.limit ≤ min 15 ((c.fault k).retryCount + 1)
    let reports : List FaultReport := allKinds.flatMap fun k =>
      if expired k ∧ (c.fault k).present = false then [⟨ch, k, (c.fault k).captured.cls, .cleared⟩]
      else if expired k ∧ limited k then [⟨ch, k, (c.fault k).captured.cls, .escalated⟩] else []
    ∃ t c', exec (.retryTimerExpiry ch) s = .next t ∧ t.chan[ch] = some c' ∧ KeepsSetting s t ∧ OthersKept ch s t ∧
      t.rest = r ∧ t.due = s.due ∧ t.link = s.link ∧ t.eng = s.eng ∧ t.hw = s.hw ∧ t.faultFrames = s.faultFrames ∧
      t.history = s.historyAfter reports ∧
      t.ctl = (s.notifyAll (reports.map FaultReport.notice
        ++ if c'.heldByFault = false ∧ c.started = true then [.callActive ch] else [])).ctl ∧
      (∀ k, ¬ expired k → c'.fault k = c.fault k) ∧
      (∀ k, expired k → (c.fault k).present = false →
        c'.fault k = { c.fault k with state := .none, retryCount := 0, captured := .none }) ∧
      (∀ k limit, expired k → (c.fault k).present = true → (c.fault k).captured = .retry limit →
        let n := min 15 ((c.fault k).retryCount + 1)
        c'.fault k = (if 0 < limit ∧ limit ≤ n then { c.fault k with state := .latched, retryCount := n }
          else { c.fault k with retryCount := n, remaining := (s.profileOf c).retryTime[k.index] })) ∧
      (c'.heldByFault = true → c'.state = .faulted ∧ c'.encY = c.encY ∧ c'.decY = c.decY ∧ c'.hangCount = c.hangCount ∧
        c'.lastKind = c.lastKind ∧ c'.sidAge = c.sidAge) ∧
      (c'.heldByFault = false → c'.state = (if c.started then .active else .aligning) ∧ c'.encY = 0 ∧ c'.decY = 0 ∧
        c'.hangCount = 0 ∧ c'.lastKind = .speech ∧ c'.sidAge = 0)

/-- A condition found present sets the condition; where the kind is NONE the class read live from the profile acts: OFF
nothing, REPORT, RETRY and LATCHED the recognised state with its captured class, a FAULT notice and a RAISED record, and
RETRY and LATCHED take an ALIGNING or ACTIVE channel to FAULTED, its waiting jobs removed and its running ones marked. -/
def Obligations.FindingRecognisesByClass : Prop :=
  ∀ (s t : State) (ch : Chan) (k : FaultKind) (c : Context), s.chan[ch] = some c → c.state ≠ .closing →
    t = s.findPresent ch k →
    let p := s.profileOf c
    let cls := p.cls[k.index]
    let found : FaultRecord := { c.fault k with present := true }
    KeepsSetting s t ∧ OthersKept ch s t ∧ t.hw = s.hw ∧ t.link = s.link ∧ t.due = s.due ∧ t.rest = s.rest ∧
    ((c.fault k).state ≠ .none ∨ cls = .off → t = { s with chan := s.chan.set ch (some (c.setFault k found)) }) ∧
    ((c.fault k).state = .none → cls ≠ .off →
      t.ctl = s.ctl.generate ⟨s.settings.levels[(0 : Fin 7)], s.hw.cycle, .faultRaised ch k⟩ ∧
      t.history = storeRecord s.settings.historyStyle ⟨s.hw.cycle, ch, k, cls, .raised⟩ s.history ∧
      ∃ c', t.chan[ch] = some c' ∧ (∀ k', k' ≠ k → c'.fault k' = c.fault k') ∧
        (cls = .report → c'.fault k = { found with state := .reported, captured := .report } ∧
          c'.state = c.state ∧ t.eng = s.eng) ∧
        (cls = .retry → c'.fault k = { found with
            state := .retrying
            captured := .retry p.retryLimit[k.index]
            retryCount := 0
            remaining := p.retryTime[k.index] } ∧ c'.state = .faulted) ∧
        (cls = .latched → c'.fault k = { found with state := .latched, captured := .latched } ∧ c'.state = .faulted) ∧
        (cls ≠ .report → c.state ≠ .faulted → t.faultFrames[ch] = 0 ∧ c'.outcome = c.outcome.withdraw ∧
          t.eng.queue = s.eng.queue.filter (fun j => j.chan ≠ ch) ∧
          ∀ e : EngineNo, t.eng.engines[e] =
            (s.eng.engines[e]).map fun r => if r.job.chan = ch then { r with marked := true } else r) ∧
        (c.state = .faulted ∨ cls = .report → t.faultFrames = s.faultFrames ∧ t.eng = s.eng))

/-! ## Output blocks -/

/-- An output block start with no DECODE job outstanding chooses by state and outcome: IDLE in ALIGNING and CLOSING;
OUT_DN in FAULTED; and in ACTIVE the decoded block, comfort noise, IDLE, or a conceal step, counted in concealed when a
missing or NO_DATA frame gives CONCEALED(j). The outcome is consumed and the block's sample of this period is sent,
at the gain down held at the start of the period.
That the code of this period is computed here is the model's choice (log entry 13). -/
def Obligations.OutputBlockStartChooses : Prop :=
  ∀ (s : State) (ch : Chan) (c : Context), s.rest = [] → .blockStart ch ∈ s.due → s.chan[ch] = some c →
    c.outcome ≠ .decode .pending →
    let out := (s.profileOf c).outDn
    let law := s.lawOf c
    ∃ t c', exec (.outputBlockStart ch) s = .next t ∧ t.chan = s.chan.set ch (some c') ∧
      t = { s with
        chan := t.chan
        hw := { s.hw with driven := t.hw.driven }
        due := s.due.filter fun x => x ≠ .blockStart ch } ∧
      c'.outcome = .none ∧ c'.state = c.state ∧
      (c.state = .aligning ∨ c.state = .closing → PlaysAs c' { c with output := .idle }) ∧
      (c.state = .faulted → (out = .idle → PlaysAs c' { c with output := .idle }) ∧
        (out = .noise → PlaysAs c' (asNoise c)) ∧ (out = .hold → PlaysAs c' (asConcealStep c))) ∧
      (c.state = .active →
        (∀ b, c.outcome = .decode (.ready b) →
          PlaysAs c' { c with output := .decoded, block := b, lastGood := b, concealIndex := 0 }) ∧
        (c.outcome = .decode .missed → PlaysAs c' (asConcealStep c)) ∧
        (c.outcome = .sid → PlaysAs c' (asNoise c)) ∧
        (c.outcome = .endFrame → PlaysAs c' { c with output := .idle }) ∧
        (c.outcome = .noData ∨ c.outcome = .missing ∨ c.outcome = .none ∨ c.outcome = .decode .withdrawn →
          PlaysAs c' (match c.output with
            | .noise => asNoise c
            | .idle => c
            | .muted => c
            | .decoded => asConcealStep c
            | .concealed => asConcealStep c))) ∧
      c'.stats.concealed =
        (if c.state = .active ∧ (c.outcome = .noData ∨ c.outcome = .missing ∨ c.outcome = .none ∨
            c.outcome = .decode .withdrawn) ∧ c'.output = .concealed
         then min 65535 (c.stats.concealed + 1) else c.stats.concealed) ∧
      let idle := c'.output = .idle ∨ c'.output = .muted
      let x := c'.block.getD ((s.hw.c.val + 160 - (c.phiDn.val + 32) % 160) % 160) 0
      t.hw.driven = s.hw.driven.set (slotNo c.highway c.timeslot)
        (if s.hw.sync = .lost then none
         else some (if idle then idleCode law else compress law (gainSample c.gainNow x))) ∧
      c'.stats.satDn = (if ¬ idle ∧ gainClamps c.gainNow x then min 65535 (c.stats.satDn + 1) else c.stats.satDn)

/-- A DECODE job still waiting or not completed at its block start is a miss: the waiting job leaves, dec_miss, the
miss window count and the load window are counted once, with a LOAD notice OVERLOADED where that brings the load window to
its limit. The block is a conceal step in ACTIVE, not counted in concealed; what OUT_DN calls for in FAULTED; and IDLE in
ALIGNING and CLOSING; and its sample of this period is sent. That the miss is counted in every state of the channel is the
model's reading (log entry 19); that the code of this period is computed here is its choice (log entry 13). -/
def Obligations.OutputBlockStartMissesPendingDecode : Prop :=
  ∀ (s : State) (ch : Chan) (c : Context), s.rest = [] → .blockStart ch ∈ s.due → s.chan[ch] = some c →
    c.outcome = .decode .pending →
    let out := (s.profileOf c).outDn
    let law := s.lawOf c
    let overloads := s.eng.load.state = .normal ∧ s.settings.loadLimit ≤ s.eng.load.misses + 1
    ∃ t c', exec (.outputBlockStart ch) s = .next t ∧ t.chan = s.chan.set ch (some c') ∧ KeepsSetting s t ∧
      t.link = s.link ∧ t.history = s.history ∧ t.due = s.due.filter (fun x => x ≠ .blockStart ch) ∧ t.rest = [] ∧
      t.eng.queue = s.eng.queue.filter (fun j => !(j.chan = ch && j.kind = .decode)) ∧
      t.eng.engines = s.eng.engines ∧ t.eng.buckets = s.eng.buckets ∧ t.eng.load.misses = s.eng.load.misses + 1 ∧
      t.eng.load.state =
        (if s.settings.loadLimit ≤ s.eng.load.misses + 1 then .overloaded else s.eng.load.state) ∧
      c'.outcome = .none ∧ c'.stats.decMiss = min 65535 (c.stats.decMiss + 1) ∧ c'.missWin = min 50 (c.missWin + 1) ∧
      t.ctl = (s.notifyAll (if overloads then [.loadState .overloaded] else [])).ctl ∧ c'.state = c.state ∧
      c'.stats.concealed = c.stats.concealed ∧ (c.state = .active → PlaysAs c' (asConcealStep c)) ∧
      (c.state = .aligning ∨ c.state = .closing → PlaysAs c' { c with output := .idle }) ∧
      (c.state = .faulted → (out = .idle → PlaysAs c' { c with output := .idle }) ∧
        (out = .noise → PlaysAs c' (asNoise c)) ∧ (out = .hold → PlaysAs c' (asConcealStep c))) ∧
      let idle := c'.output = .idle ∨ c'.output = .muted
      let x := c'.block.getD ((s.hw.c.val + 160 - (c.phiDn.val + 32) % 160) % 160) 0
      t.hw.driven = s.hw.driven.set (slotNo c.highway c.timeslot)
        (if s.hw.sync = .lost then none
         else some (if idle then idleCode law else compress law (gainSample c.gainNow x))) ∧
      c'.stats.satDn = (if ¬ idle ∧ gainClamps c.gainNow x then min 65535 (c.stats.satDn + 1) else c.stats.satDn)

/-! ## Jobs and load -/

/-- The completion of an ENCODE job that is kept writes the codec fields its decision leaves (speech above VAD_LEVEL,
in the hangover or with DTX off; else a SID first and at every 8th frame, NO_DATA between) and places that frame; dispatch
follows at that instant. `u` is the state just before it, where the engine still runs the job unmarked, and `v` the state
once the result is taken; where the placement brings no DRIFT fault the waiting jobs stay. What lies before the completion
instant is done first (log entry 2). -/
def Obligations.JobCompletionKeepsEncode : Prop :=
  ∀ (s u : State) (e : EngineNo) (r q : Running) (ch : Chan) (rate : Rate) (dl : Nat) (xs : List Int) (c : Context),
    s.rest = [] → s.eng.engines[e] = some r → r.done ≤ s.hw.periodStart + 125000 → u = s.advanceTo r.done →
    u.eng.engines[e] = some q → q.marked = false → q.job = ⟨ch, .encode, rate, dl, .samples xs⟩ →
    u.chan[ch] = some c → c.state ≠ .faulted →
    let m := ((xs.drop 1).map Int.natAbs).sum / 160
    let speech := q.read.vadLevel < m ∨ 0 < q.read.hangCount ∨ q.read.dtx = false
    let sid := q.read.lastKind = .speech ∨ 8 ≤ q.read.sidAge + 1
    let coded := encodeSpeech rate q.read.encY xs
    let f := if speech then u.fillFrame c .speech (some rate) coded.1
      else if sid then u.fillFrame c .sid none [byte (min 63 (m / 32))] else u.fillFrame c .noData none []
    ∃ v c', exec (.jobCompletion e) s = .next (v.dispatch (max q.done u.hw.periodStart)) ∧ v.chan[ch] = some c' ∧
      KeepsSetting u v ∧ OthersKept ch u v ∧ v.eng.engines[e] = none ∧ v.eng.load = u.eng.load ∧
      v.eng.queue = (if c'.state = c.state then u.eng.queue else u.eng.queue.filter fun j => j.chan ≠ ch) ∧
      c'.hangCount = (if q.read.vadLevel < m then q.read.hangover else q.read.hangCount - 1) ∧
      c'.lastKind = f.kind ∧
      c'.sidAge = (if speech then q.read.sidAge else if sid then 0 else q.read.sidAge + 1) ∧
      c'.encY = (if speech then coded.2 else if sid then 0 else q.read.encY) ∧
      v.link.slots = u.link.slots.set ch (some ⟨f, false⟩) ∧ c'.upSeq = c.upSeq + 1 ∧
      c'.stats.framesOut = min 65535 (c.stats.framesOut + 1)

/-- The completion of a DECODE job kept marks its block ready and gives the decoder y_prev its last sample. A marked
job, a FREE channel, an ENCODE of a FAULTED channel and a DECODE whose block start is past change nothing but the
engine. Dispatch follows at that instant. `u` is the state just before it (log entry 2). -/
def Obligations.JobCompletionKeepsDecodeOrDiscards : Prop :=
  ∀ (s u : State) (e : EngineNo) (r q : Running), s.rest = [] → s.eng.engines[e] = some r →
    r.done ≤ s.hw.periodStart + 125000 → u = s.advanceTo r.done → u.eng.engines[e] = some q →
    let now := max q.done u.hw.periodStart
    let freed : State := { u with eng := { u.eng with engines := u.eng.engines.set e none } }
    (q.marked = true ∨ u.chan[q.job.chan] = none ∨
      (∃ c, u.chan[q.job.chan] = some c ∧
        (q.job.kind = .encode ∧ c.state = .faulted ∨ q.job.kind = .decode ∧ c.outcome ≠ .decode .pending)) →
      exec (.jobCompletion e) s = .next (freed.dispatch now)) ∧
    ∀ (bs : List Byte) (c : Context), q.marked = false → q.job.kind = .decode → q.job.input = .payload bs →
      u.chan[q.job.chan] = some c → c.outcome = .decode .pending →
      let block := decodeSpeech q.job.rate q.read.decY bs
      let ready : Context := { c with decY := block.getLastD c.decY, outcome := .decode (.ready block) }
      exec (.jobCompletion e) s = .next ({ freed with chan := u.chan.set q.job.chan (some ready) }.dispatch now)

/-- A completion is followed by dispatch at that instant, and dispatch takes heads of the job queue one after another:
with an engine idle, a head that can still meet its deadline is started by the lowest idle engine, one that cannot
leaves as a miss, counted in its three places, and the next head follows at the same instant; with no engine idle or
nothing waiting it ends. Here the completed job is marked. In a short period an instant beyond its length is the next
period start: a job that an earlier command started there is moved to it when the pulse comes (log entry 5). That one
started exactly as the period ends keeps its start is the model's choice (log entry 37). -/
def Obligations.JobCompletionDispatchesHeads : Prop :=
  (∀ (s u : State) (e : EngineNo) (r q : Running), s.rest = [] → s.eng.engines[e] = some r →
    r.done ≤ s.hw.periodStart + 125000 → u = s.advanceTo r.done → u.eng.engines[e] = some q → q.marked = true →
    exec (.jobCompletion e) s = .next
      (State.dispatch (max q.done u.hw.periodStart) { u with eng := { u.eng with engines := u.eng.engines.set e none } })) ∧
  (∀ (s u : State) (tNs : Nat), tNs < 125000 → s.rest = [] → u = s.advanceTo (s.hw.periodStart + tNs) →
    let next := s.hw.periodStart + 125000
    ∃ t, s.atPeriodEnd tNs = t ∧ t = { u with eng := { u.eng with engines := t.eng.engines } } ∧
      ∀ e : EngineNo, t.eng.engines[e] = (u.eng.engines[e]).map fun r =>
        if s.hw.periodStart + tNs < r.start ∧ r.start < next
        then { r with start := next, done := next + jobDurationNs r.job.kind r.job.rate } else r) ∧
  (∀ (s : State) (now : Nat), s.eng.queue = [] ∨ (∀ e : EngineNo, (s.eng.engines[e]).isSome) → s.dispatch now = s) ∧
  (∀ (s : State) (now : Nat) (e : EngineNo) (j : Job) (more : List Job), s.eng.queue = j :: more →
    s.eng.engines[e] = none → (∀ n : EngineNo, n < e → (s.eng.engines[n]).isSome) →
    let left : State := { s with eng := { s.eng with queue := more } }
    (now + jobDurationNs j.kind j.rate ≤ j.deadline → s.dispatch now = State.dispatch now { s with eng := { s.eng with
      queue := more
      engines := s.eng.engines.set e
        (some ⟨j, now, now + jobDurationNs j.kind j.rate, false, s.codecRead j.chan⟩) } }) ∧
    (j.deadline < now + jobDurationNs j.kind j.rate →
      s.dispatch now = State.dispatch now (left.missJob j.chan j.kind))) ∧
  ∀ (s t : State) (ch : Chan) (kind : JobKind) (c : Context), s.chan[ch] = some c → t = s.missJob ch kind →
    ∃ c', t.chan[ch] = some c' ∧ KeepsSetting s t ∧ OthersKept ch s t ∧ t.due = s.due ∧ t.rest = s.rest ∧
      t.eng.load.misses = s.eng.load.misses + 1 ∧ c'.missWin = min 50 (c.missWin + 1) ∧
      c'.stats.encMiss = (if kind = .encode then min 65535 (c.stats.encMiss + 1) else c.stats.encMiss) ∧
      c'.stats.decMiss = (if kind = .decode then min 65535 (c.stats.decMiss + 1) else c.stats.decMiss) ∧
      (kind = .encode → t.link.slots = s.link.slots.set ch (some ⟨s.fillFrame c .noData none [], false⟩))

/-- A job still waiting at its deadline leaves the queue as a miss, counted once in its three places: an ENCODE miss
places a NO_DATA frame and keeps the codec state; a DECODE miss marks its outcome missed. The other jobs stay in the
queue, in their order, but for those of the channel itself where the placement makes it FAULTED. A deadline is taken
once this period has started at it, or at the end of the period where it falls there, in `u`, once what lies before it
is done (log entry 2). -/
def Obligations.JobDeadlineIsAMiss : Prop :=
  ∀ (s u : State) (ch : Chan) (kind : JobKind) (j : Job) (c : Context), s.rest = [] → j ∈ s.eng.queue → j.chan = ch →
    j.kind = kind →
    (j.deadline ≤ s.hw.periodStart ∧ u = s ∨
      (∀ x ∈ s.eng.queue, x.chan = ch → x.kind = kind → s.hw.periodStart < x.deadline) ∧
        j.deadline ≤ s.hw.periodStart + 125000 ∧ u = s.advanceTo (s.hw.periodStart + 125000)) →
    j ∈ u.eng.queue → u.chan[ch] = some c →
    ∃ t c', exec (.jobDeadline ch kind) s = .next t ∧ t.chan[ch] = some c' ∧ KeepsSetting u t ∧ OthersKept ch u t ∧
      t.due = u.due ∧ t.rest = [] ∧ (∀ x ∈ t.eng.queue, ¬ (x.chan = ch ∧ x.kind = kind)) ∧
      (t.eng.queue.filter fun x => x.chan ≠ ch) = (u.eng.queue.filter fun x => x.chan ≠ ch) ∧
      (c'.state = c.state → t.eng.queue = u.eng.queue.filter (fun x => !(x.chan = ch && x.kind = kind)) ∧
        t.eng.engines = u.eng.engines) ∧
      t.eng.load.misses = u.eng.load.misses + 1 ∧ c'.missWin = min 50 (c.missWin + 1) ∧
      c'.encY = c.encY ∧ c'.decY = c.decY ∧ c'.hangCount = c.hangCount ∧ c'.lastKind = c.lastKind ∧
      c'.sidAge = c.sidAge ∧
      (kind = .encode → t.link.slots = u.link.slots.set ch (some ⟨u.fillFrame c .noData none [], false⟩) ∧
        c'.upSeq = c.upSeq + 1 ∧ c'.stats.framesOut = min 65535 (c.stats.framesOut + 1) ∧
        c'.stats.encMiss = min 65535 (c.stats.encMiss + 1) ∧ c'.stats.decMiss = c.stats.decMiss) ∧
      (kind = .decode → t.link = u.link ∧ (c.outcome = .decode .pending → c'.outcome = .decode .missed) ∧
        c'.stats.decMiss = min 65535 (c.stats.decMiss + 1) ∧ c'.stats.encMiss = c.stats.encMiss)

/-- The end of a load window returns OVERLOADED to NORMAL, with a LOAD notice, exactly when no miss was counted in it, and
starts a window of 50 wraps with no miss; and a miss makes NORMAL OVERLOADED, with a LOAD notice, exactly when it brings
the count to LOAD_LIMIT. -/
def Obligations.LoadWindowAndMissesMoveLoadState : Prop :=
  (∀ s : State, s.rest = [] → .loadWindowEnd ∈ s.due →
    let left : State := { s with due := s.due.filter fun x => x ≠ .loadWindowEnd }
    exec .loadWindowEnd s = .next
      (if s.eng.load.state = .overloaded ∧ s.eng.load.misses = 0
       then { left with eng := { s.eng with load := ⟨.normal, 0, 50⟩ } }.notify (.loadState .normal)
       else { left with eng := { s.eng with load := ⟨s.eng.load.state, 0, 50⟩ } })) ∧
  ∀ s t : State, t = s.loadMiss →
    let counted : State := { s with eng := { s.eng with load := { s.eng.load with misses := s.eng.load.misses + 1 } } }
    t = (if s.eng.load.state = .normal ∧ s.settings.loadLimit ≤ s.eng.load.misses + 1
      then { counted with eng := { counted.eng with load := { counted.eng.load with state := .overloaded } } }.notify
        (.loadState .overloaded)
      else counted)

/-! ## Notices and the fault history -/

/-- What generating a notice does: the flag of its class is set whatever the level; a level 0 is not queued; a LINK,
SYNC or LOAD notice removes a waiting one of its class; with 32 still waiting it is dropped unless it outranks the
lowest, whose oldest then leaves; and it stands after every notice of its level or a higher one and before the lower
ones. An idle transmitter then chooses. And what offering a record to the history does in each style. -/
def Obligations.NoticeQueueAndHistory : Prop :=
  (∀ (s t : State) (b : NoticeBody), (∀ m ∈ s.ctl.notices, m.level ≤ 3) → t = s.notify b →
    let level := s.settings.levels[b.cls]
    let n : Notice := ⟨level, s.hw.cycle, b⟩
    let isState := b.cls = 2 ∨ b.cls = 3 ∨ b.cls = 5
    let kept := if isState then s.ctl.notices.filter fun m => m.body.cls ≠ b.cls else s.ctl.notices
    let inserted := fun (q q' : List Notice) => ∃ before after, q = before ++ after ∧ q' = before ++ n :: after ∧
      (∀ m ∈ before, level ≤ m.level) ∧ ∀ m, after.head? = some m → m.level < level
    t = { s with ctl := { s.ctl with flags := t.ctl.flags, notices := t.ctl.notices, tx := t.ctl.tx } } ∧
    (∀ i, i < 8 → t.ctl.flags.getLsbD i = (s.ctl.flags.getLsbD i || decide (i = b.cls.val))) ∧
    ∃ q : List Notice,
      (level = 0 → q = s.ctl.notices) ∧
      (level ≠ 0 →
        (kept.length < 32 → inserted kept q) ∧
        (32 ≤ kept.length → (∀ m ∈ kept, level ≤ m.level) → q = kept) ∧
        (32 ≤ kept.length → (∃ m ∈ kept, m.level < level) → ∃ older m newer, kept = older ++ m :: newer ∧
          (∀ x ∈ older, m.level < x.level) ∧ (∀ x ∈ newer, m.level ≤ x.level) ∧ inserted (older ++ newer) q)) ∧
      (s.ctl.tx ≠ .idle → t.ctl.tx = s.ctl.tx ∧ t.ctl.notices = q) ∧
      (s.ctl.tx = .idle → s.ctl.answer.isSome → t.ctl.tx = .answer ∧ t.ctl.notices = q) ∧
      (s.ctl.tx = .idle → s.ctl.answer = none → (q = [] → t.ctl.tx = .idle ∧ t.ctl.notices = []) ∧
        ∀ m more, q = m :: more → t.ctl.tx = .notice m ∧ t.ctl.notices = more)) ∧
  ∀ (s t : State) (ch : Chan) (k : FaultKind) (cls : FaultClass) (ev : FaultEvent), t = s.offerRecord ch k cls ev →
    let r : HistoryRecord := ⟨s.hw.cycle, ch, k, cls, ev⟩
    t = { s with history := t.history } ∧
    (s.settings.historyStyle = .off → t.history = s.history) ∧
    (s.settings.historyStyle ≠ .off → s.history.length < 32 → t.history = s.history ++ [r]) ∧
    (s.settings.historyStyle = .wrap → s.history.length = 32 → t.history = s.history.tail ++ [r]) ∧
    (s.settings.historyStyle = .keepFirst → s.history.length = 32 → t.history = s.history)

/-! ## The link port -/

/-- The checks of a received unit on its own bytes, in their order: its length, its kind, a SPEECH rate, and the payload
length its kind and rate call for; and the fields of a unit that passes, at their places in the header. An arrival that
fails a check, of an unknown tag or of a CLOSING channel raises the counter of the first check that fails and nothing
else: no channel, statistic or notice is touched. In DOWN the line carries nothing; that an arrival then changes nothing
is the model's choice (log entry 12). -/
def Obligations.UnitChecksAndCounters : Prop :=
  (∀ bytes : List Byte,
    let b := fun i => (bytes.getD i 0).toNat
    let kind := b 0 / 16
    let rate := b 3 / 64
    let want := if kind = 1 then (if rate = 1 then 82 else if rate = 2 then 62 else 42) else if kind = 2 then 1 else 0
    (bytes.length < 7 ∨ bytes.length ≠ 7 + b 6 → checkUnit bytes = .error .length) ∧
    (bytes.length = 7 + b 6 → kind = 0 ∨ 4 < kind → checkUnit bytes = .error .format) ∧
    (bytes.length = 7 + b 6 → kind = 1 → rate = 0 → checkUnit bytes = .error .format) ∧
    (bytes.length = 7 + b 6 → 1 ≤ kind → kind ≤ 4 → ¬ (kind = 1 ∧ rate = 0) → b 6 ≠ want →
      checkUnit bytes = .error .length) ∧
    (bytes.length = 7 + b 6 → 1 ≤ kind → kind ≤ 4 → ¬ (kind = 1 ∧ rate = 0) → b 6 = want →
      ∃ r e, checkUnit bytes = .ok (r, e) ∧ r.tag.val = b 0 % 16 * 256 + b 1 ∧ e.seq.toNat = b 2 ∧
        e.kind.code = kind ∧ rateCode e.rate = (if kind = 1 then rate else 0) ∧ e.payload = bytes.drop 7 ∧
        r.rateReq = b 3 / 16 % 4 ∧ r.token.val = b 3 / 4 % 4 ∧ r.echo.val = b 3 % 4 ∧ r.dir = b 4 ∧ r.amount = b 5)) ∧
  ∀ (s : State) (bytes : List Byte), s.rest = [] →
    let ended : LinkPort := { s.link with receiving := false }
    (s.link.state = .down → exec (.linkFrameArrival bytes) s = .next s) ∧
    (s.link.state ≠ .down →
      (checkUnit bytes = .error .length → exec (.linkFrameArrival bytes) s =
        .next { s with link := { ended with errLength := min 65535 (s.link.errLength + 1) } }) ∧
      (checkUnit bytes = .error .format → exec (.linkFrameArrival bytes) s =
        .next { s with link := { ended with errFormat := min 65535 (s.link.errFormat + 1) } }) ∧
      ∀ r e, checkUnit bytes = .ok (r, e) →
        (s.tagMap[r.tag] = none → exec (.linkFrameArrival bytes) s =
          .next { s with link := { ended with errUnknownTag := min 65535 (s.link.errUnknownTag + 1) } }) ∧
        ∀ ch c, s.tagMap[r.tag] = some ch → s.chan[ch] = some c → c.state = .closing →
          exec (.linkFrameArrival bytes) s =
            .next { s with link := { ended with errNotAccepting := min 65535 (s.link.errNotAccepting + 1) } })

/-- A valid arrival's timing request becomes the pending adjust unless it is ignored, an echo of the outstanding token
clears the request, the drift count and DRIFT, and a rate request of 1 to 3 is held, whatever the frame's verdict. -/
def Obligations.ArrivalReachesAlignment : Prop :=
  ∀ (s : State) (bytes : List Byte) (r : Received) (e : QueueEntry) (ch : Chan) (c : Context), s.rest = [] →
    s.link.state ≠ .down → checkUnit bytes = .ok (r, e) → s.tagMap[r.tag] = some ch → s.chan[ch] = some c →
    c.state ≠ .closing →
    let ignored := r.token = 0 ∨ (r.dir ≠ 1 ∧ r.dir ≠ 2) ∨ r.amount = 0 ∨ r.token = c.upEcho ∨
      c.adjust.map UplinkAdjust.token = some r.token
    let acked := r.echo ≠ 0 ∧ c.request.map TimingRequest.token = some r.echo
    ∃ t c', exec (.linkFrameArrival bytes) s = .next t ∧ t.chan = s.chan.set ch (some c') ∧
      t = { s with chan := t.chan, rest := t.rest, link := { s.link with receiving := false } } ∧
      c'.adjust = (if ignored then c.adjust
        else some ⟨if r.dir = 1 then .advance else .retard, min 40 r.amount, r.token⟩) ∧
      c'.request = (if acked then none else c.request) ∧ c'.drift = (if acked then 0 else c.drift) ∧
      (c'.fault .drift).present = (if acked then false else (c.fault .drift).present) ∧
      (c'.fault .drift).state = (c.fault .drift).state ∧ c'.lastToken = c.lastToken ∧
      c'.rateReq = (match r.rateReq with
        | 1 => some .l32
        | 2 => some .l24
        | 3 => some .l16
        | _ => c.rateReq) ∧
      c'.upRate = c.upRate ∧ c'.upEcho = c.upEcho ∧ c'.phiUp = c.phiUp ∧ c'.blockLen = c.blockLen ∧
      c'.state = c.state ∧ c'.ring = c.ring ∧ c'.output = c.output ∧ c'.outcome = c.outcome

/-- A valid arrival is classified by its distance from expected and inserted, discarded or made a resync, with its
counter; an insertion resets the starvation count and the too-early run. An ACCEPTED arrival in PLAYING and a LATE one are
counted in the observation window with their margin, and the 50th leaves the window's end to do. -/
def Obligations.ArrivalReachesPlayoutQueue : Prop :=
  ∀ (s : State) (bytes : List Byte) (r : Received) (e : QueueEntry) (ch : Chan) (c : Context), s.rest = [] →
    s.link.state ≠ .down → checkUnit bytes = .ok (r, e) → s.tagMap[r.tag] = some ch → s.chan[ch] = some c →
    c.state ≠ .closing →
    let acked := r.echo ≠ 0 ∧ c.request.map TimingRequest.token = some r.echo
    let count := if acked then 0 else c.winCount
    let least := if acked then none else c.winMin
    let late := if acked then 0 else c.winLate
    ∃ t c', exec (.linkFrameArrival bytes) s = .next t ∧ t.chan[ch] = some c' ∧ c'.started = c.started ∧
      let taken := c'.starvation = 0 ∧ c'.tooEarlyRun = 0 ∧ (c'.fault .starvation).present = false ∧
        c'.stats.framesIn = min 65535 (c.stats.framesIn + 1)
      let left := c'.queue = c.queue ∧ c'.expected = c.expected ∧ c'.playout = c.playout ∧
        c'.starvation = c.starvation ∧ c'.stats.framesIn = c.stats.framesIn
      let uncounted := c'.winCount = count ∧ c'.winMin = least ∧ c'.winLate = late ∧ t.rest = []
      let counted := fun m : Int => c'.winCount = (if count + 1 = 50 then 0 else count + 1) ∧
        c'.winMin = some (match least with
          | none => m
          | some x => min x m) ∧ t.rest = (if count + 1 = 50 then [.observationWindow ch] else [])
      (c.expected = none → c'.expected = some e.seq ∧ c'.queue = [e] ∧ c'.playout = c.playout ∧ taken ∧ uncounted) ∧
      ∀ x, c.expected = some x →
        let d := (e.seq - x).toNat
        (d < 8 → (∃ f ∈ c.queue, f.seq = e.seq) →
          left ∧ c'.tooEarlyRun = c.tooEarlyRun ∧ c'.stats.duplicate = min 65535 (c.stats.duplicate + 1) ∧ uncounted) ∧
        (d < 8 → (¬ ∃ f ∈ c.queue, f.seq = e.seq) →
          c'.expected = c.expected ∧ c'.playout = c.playout ∧ taken ∧
          (∃ before after, c.queue = before ++ after ∧ c'.queue = before ++ e :: after ∧
            (∀ f ∈ before, seqDistance x f.seq ≤ d) ∧ ∀ f, after.head? = some f → d < seqDistance x f.seq) ∧
          (c.playout = .waiting → uncounted) ∧
          (c.playout = .playing → c'.winLate = late ∧
            counted (((if s.hw.c = c.phiDn then 160 else (c.phiDn.val + 160 - s.hw.c.val) % 160) + 160 * d : Nat)))) ∧
        (8 ≤ d → d < 128 → c.tooEarlyRun = 2 →
          c'.expected = some e.seq ∧ c'.queue = [e] ∧ c'.playout = .waiting ∧ taken ∧ uncounted ∧
          c'.stats.tooEarly = min 65535 (c.stats.tooEarly + 1) ∧ c'.stats.resyncs = min 65535 (c.stats.resyncs + 1)) ∧
        (8 ≤ d → d < 128 → c.tooEarlyRun ≠ 2 →
          left ∧ c'.tooEarlyRun = c.tooEarlyRun + 1 ∧ c'.stats.tooEarly = min 65535 (c.stats.tooEarly + 1) ∧
          uncounted) ∧
        (128 ≤ d → left ∧ c'.tooEarlyRun = c.tooEarlyRun ∧ c'.stats.late = min 65535 (c.stats.late + 1) ∧
          c'.winLate = min 50 (late + 1) ∧ counted (-1))

/-- The end of an observation window judges LATE from the late count; with no request outstanding it compares the
minimum margin with the band, the default band and a set marker standing in for an inconsistent pair, and makes a
request with the next token; with one outstanding it leaves request and marker. The window then restarts. A LATE
recognised makes its FAULT notice and record, and a marker that was clear its CONFIG notice DEFAULTED after it. -/
def Obligations.ObservationWindowEndJudges : Prop :=
  ∀ (s : State) (ch : Chan) (c : Context) (r : List Rest), s.rest = .observationWindow ch :: r →
    s.chan[ch] = some c → c.state ≠ .closing →
    let p := s.profileOf c
    let late := decide (p.lateLimit ≤ c.winLate)
    let lo : Int := if p.marginLo < p.marginHi then p.marginLo else 60
    let hi : Int := if p.marginLo < p.marginHi then p.marginHi else 300
    let target := (lo + hi) / 2
    let reports := if late then s.raisedBy .late ch c else []
    let token : Token := Fin.ofNat 4 (c.lastToken.val % 3 + 1)
    ∃ t c', exec (.observationWindowEnd ch) s = .next t ∧ t.chan[ch] = some c' ∧ OthersKept ch s t ∧ t.rest = r ∧
      t.hw = s.hw ∧ t.link = s.link ∧ t.settings = s.settings ∧ t.mode = s.mode ∧ t.tagMap = s.tagMap ∧ t.due = s.due ∧
      t.history = s.historyAfter reports ∧
      t.ctl = (s.notifyAll (reports.map FaultReport.notice
        ++ if c.request = none ∧ ¬ p.marginLo < p.marginHi ∧ p.defaulted = false
          then [.configDefaulted ch] else [])).ctl ∧
      c'.winCount = 0 ∧ c'.winMin = none ∧ c'.winLate = 0 ∧ c'.queue = c.queue ∧ c'.expected = c.expected ∧
      (c'.fault .late).present = late ∧
      (c'.fault .late).state = judgedState p.cls[FaultKind.late.index] late (c.fault .late).state ∧
      (∀ k, k ≠ .late → c'.fault k = c.fault k) ∧
      (c.request.isSome → c'.request = c.request ∧ c'.lastToken = c.lastToken ∧
        c'.stats.requestsSent = c.stats.requestsSent ∧ t.profiles = s.profiles) ∧
      (c.request = none →
        t.profiles = s.profiles.set c.profile { p with defaulted := p.defaulted || !(p.marginLo < p.marginHi) } ∧
        (∀ m, c.winMin = some m → m < lo ∨ hi < m →
          (∃ k : Nat, c'.request = some ⟨if m < lo then .sendEarlier else .sendLater, k, token⟩ ∧
            (k : Int) = max 1 (min 80 (if m < lo then target - m else m - target))) ∧
          c'.lastToken = token ∧ c'.stats.requestsSent = min 65535 (c.stats.requestsSent + 1)) ∧
        ((∀ m, c.winMin = some m → lo ≤ m ∧ m ≤ hi) →
          c'.request = none ∧ c'.lastToken = c.lastToken ∧ c'.stats.requestsSent = c.stats.requestsSent))

/-- The link state follows the carrier and the pause and resume indications as its table gives, each change with a LINK
notice. DOWN abandons a transmission, discards a unit being received into LENGTH and makes LINK present on every open
channel; UP from DOWN makes it absent, and UP starts the head channel's frame. Indications that cannot arrive change
nothing, and the LINK notice comes before the findings, which follow in ascending order of the channels: the model's
choices (log entries 12 and 24). -/
def Obligations.LinkStateFollowsLine : Prop :=
  ∀ s : State, s.rest = [] →
    (s.link.state = .down → exec .carrierLost s = .next s ∧ exec .pauseIndication s = .next s ∧
      exec .resumeIndication s = .next s) ∧
    (s.link.state = .up → exec .carrierGained s = .next s ∧ exec .resumeIndication s = .next s ∧
      exec .pauseIndication s =
        .next ({ s with link := { s.link with state := .paused } }.notify (.linkState .paused))) ∧
    (s.link.state = .paused → exec .carrierGained s = .next s ∧ exec .pauseIndication s = .next s ∧
      ∃ t, exec .resumeIndication s = .next t ∧ t.link.state = .up ∧ t.link.txQueue = s.link.txQueue ∧
        t.link.slots = s.link.slots ∧
        (∀ ch more sl, s.link.sending = none → s.link.txQueue = ch :: more → s.link.slots[ch] = some sl →
          t.link.sending = some ((7 + sl.frame.payload.length + 12) * 80)) ∧
        t.ctl = (s.notify (.linkState .up)).ctl ∧ t.chan = s.chan ∧ t.eng = s.eng ∧ t.hw = s.hw ∧ t.history = s.history) ∧
    (s.link.state ≠ .down → ∃ t, exec .carrierLost s = .next t ∧
      t.link = { s.link with
        state := .down
        sending := none
        lastDelimiter := if s.link.sending.isSome then .abortDelimiter else s.link.lastDelimiter
        receiving := false
        errLength := if s.link.receiving then min 65535 (s.link.errLength + 1) else s.link.errLength } ∧
      t.ctl = (s.notifyAll (.linkState .down :: (s.raisedByAll .link).map FaultReport.notice)).ctl ∧
      t.history = s.historyAfter (s.raisedByAll .link) ∧
      t.hw = s.hw ∧ t.tagMap = s.tagMap ∧ t.profiles = s.profiles ∧
      t.settings = s.settings ∧ t.mode = s.mode ∧ t.due = s.due ∧
      (∀ ch : Chan, s.chan[ch] = none → t.chan[ch] = none) ∧
      ∀ (ch : Chan) (c : Context), s.chan[ch] = some c → ∃ c', t.chan[ch] = some c' ∧
        (c.state = .closing → c' = c) ∧
        (c.state ≠ .closing → (c'.fault .link).present = true ∧
          (c'.fault .link).state = judgedState (s.profileOf c).cls[FaultKind.link.index] true (c.fault .link).state ∧
          c'.state = (if (c.fault .link).state = .none ∧ ((s.profileOf c).cls[FaultKind.link.index] = .retry ∨
            (s.profileOf c).cls[FaultKind.link.index] = .latched) then .faulted else c.state) ∧
          (∀ k, k ≠ .link → c'.fault k = c.fault k) ∧ c'.ring = c.ring ∧ c'.queue = c.queue)) ∧
    (s.link.state = .down → ∃ t, exec .carrierGained s = .next t ∧ t.link.state = .up ∧
      t.link.txQueue = s.link.txQueue ∧ t.link.slots = s.link.slots ∧
      (∀ ch more sl, s.link.sending = none → s.link.txQueue = ch :: more → s.link.slots[ch] = some sl →
        t.link.sending = some ((7 + sl.frame.payload.length + 12) * 80)) ∧
      t.ctl = (s.notify (.linkState .up)).ctl ∧ t.hw = s.hw ∧ t.tagMap = s.tagMap ∧ t.eng = s.eng ∧
      t.history = s.history ∧
      t.profiles = s.profiles ∧ t.settings = s.settings ∧ t.mode = s.mode ∧
      (∀ ch : Chan, s.chan[ch] = none → t.chan[ch] = none) ∧
      ∀ (ch : Chan) (c : Context), s.chan[ch] = some c → t.chan[ch] = some
        (if c.state = .closing then c else c.setFault .link { c.fault .link with present := false }))

/-- The end of a transmission empties the head channel's slot, takes it out of the queue and starts the next head in
UP; a start delimiter begins a unit except in DOWN; and an aborted unit being received is counted in LENGTH. The
delimiters in DOWN, a repeated start and an abort with no unit are the model's choice (log entry 12). -/
def Obligations.LinkLineEvents : Prop :=
  ∀ s : State, s.rest = [] →
    (s.link.sending = none ∨ s.link.txQueue = [] → exec .linkTransmissionEnd s = .next s) ∧
    (∀ ns ch more, s.link.sending = some ns → s.link.txQueue = ch :: more →
      ∃ t, exec .linkTransmissionEnd s = .next t ∧
        t = { s with link := { s.link with
          slots := s.link.slots.set ch none
          txQueue := more
          lastDelimiter := .endDelimiter
          sending := t.link.sending } } ∧
        (s.link.state ≠ .up ∨ more = [] → t.link.sending = none) ∧
        (s.link.state = .up → ∀ d rest sl, more = d :: rest → d ≠ ch → s.link.slots[d] = some sl →
          t.link.sending = some ((7 + sl.frame.payload.length + 12) * 80))) ∧
    (exec .startDelimiter s = .next
      (if s.link.state = .down then s else { s with link := { s.link with receiving := true } })) ∧
    exec .unitAborted s = .next (if s.link.receiving then { s with link := { s.link with
      receiving := false, errLength := min 65535 (s.link.errLength + 1) } } else s)

/-! ## The control line -/

/-- A byte's frame at the line's parity: start bit, eight data bits least significant first, a parity bit with even or
odd, and a stop bit, read back as sent; a parity bit that makes the wrong count of ones is a parity error, a low stop
bit a framing error, and other bits no byte. With such bytes: a start marker in HUNT, a count of 2 to 250 in COUNT, and
body bytes stored and marked in BODY; a bad count byte and a gap abandon the message with a LINE notice of its cause. In
another framing state, with a good count for a bad one, or with a byte at another place of the message, the event does
not occur and its row changes nothing, which is the model's reading (log entry 2). That a count byte with an error gives
the cause of the error also where its value is outside 2 to 250 is the model's reading (log entry 39). That the notice
of a gap has cause GAP also where a byte had marked the message bad is the model's choice (log entry 35). That the start
bit is low and the sense of the parity are presumed, and that bits of another number than the parity calls for are no
byte, whose row changes nothing, is the model's choice (log entry 30). Where a byte has both errors the cause is one of
the two (log entry 6). -/
def Obligations.MessageFraming : Prop :=
  (∀ (p : LineParity) (b : Byte), readFrame p (byteFrame p b) = some (b, .none)) ∧
  (∀ (p : LineParity) (d : List Bool) (q stop : Bool), d.length = 8 → ∃ b : Byte,
    (∀ i, i < 8 → b.getLsbD i = d.getD i false) ∧
    (p = .none → readFrame p (false :: d ++ [stop]) = some (b, if stop then .none else .framing) ∧
      readFrame p (false :: d ++ [q, stop]) = none) ∧
    (p ≠ .none → readFrame p (false :: d ++ [stop]) = none ∧
      readFrame p (false :: d ++ [q, stop]) =
        some (b, if (d ++ [q]).count true % 2 = (if p = .even then 0 else 1) then (if stop then .none else .framing)
          else if stop then .parity else .both))) ∧
  ∀ s : State, s.rest = [] →
    let hunting : State := { s with ctl := { s.ctl with rx := .hunt } }
    exec .startMarker s = .next (if s.ctl.rx = .hunt then { s with ctl := { s.ctl with rx := .count } } else s) ∧
    (∀ b : Byte,
      (s.ctl.rx = .count → 2 ≤ b.toNat → b.toNat ≤ 250 →
        exec (.countByte b) s = .next { s with ctl := { s.ctl with rx := .body b.toNat [] false false } }) ∧
      (s.ctl.rx ≠ .count ∨ b.toNat < 2 ∨ 250 < b.toNat → exec (.countByte b) s = .next s)) ∧
    (∀ b tail, readFrame s.settings.line.parity (frameBits b tail) = none →
      exec (.badCountByte b tail) s = .next s ∧ exec (.bodyByte b tail) s = .next s ∧
      exec (.controlMessageReceived b tail) s = .next s) ∧
    (∀ b tail err, readFrame s.settings.line.parity (frameBits b tail) = some (b, err) →
      (s.ctl.rx ≠ .count → exec (.badCountByte b tail) s = .next s) ∧
      (s.ctl.rx = .count →
        (err = .none → 2 ≤ b.toNat → b.toNat ≤ 250 → exec (.badCountByte b tail) s = .next s) ∧
        (err = .none → b.toNat < 2 ∨ 250 < b.toNat →
          exec (.badCountByte b tail) s = .next (hunting.notify (.lineError .count))) ∧
        (err = .parity → exec (.badCountByte b tail) s = .next (hunting.notify (.lineError .parity))) ∧
        (err = .framing → exec (.badCountByte b tail) s = .next (hunting.notify (.lineError .framing))) ∧
        (err = .both → ∃ cause, (cause = .parity ∨ cause = .framing) ∧ exec (.badCountByte b tail) s =
          .next ({ hunting with freeCount := s.freeCount + 1 }.notify (.lineError cause)))) ∧
      (∀ n got pe fe, s.ctl.rx = .body n got pe fe → got.length + 1 < n →
        let parity := pe || err = .parity || err = .both
        let framing := fe || err = .framing || err = .both
        exec (.bodyByte b tail) s = .next { s with ctl := { s.ctl with rx := .body n (got ++ [b]) parity framing } }) ∧
      (∀ n got pe fe, s.ctl.rx = .body n got pe fe →
        (n ≤ got.length + 1 → exec (.bodyByte b tail) s = .next s) ∧
        (got.length + 1 ≠ n → exec (.controlMessageReceived b tail) s = .next s)) ∧
      (s.ctl.rx = .hunt ∨ s.ctl.rx = .count →
        exec (.bodyByte b tail) s = .next s ∧ exec (.controlMessageReceived b tail) s = .next s)) ∧
    (s.ctl.rx = .hunt → exec .gapTimeout s = .next s) ∧
    (s.ctl.rx ≠ .hunt → exec .gapTimeout s = .next (hunting.notify (.lineError .gap)))

/-- The last byte of a message returns the receiver to HUNT. A good message is appended to the order buffer while fewer
than 4 wait, and is otherwise discarded with OVERRUN set and a LINE notice; a bad one is discarded with a LINE notice of
its error, either of the two where both occurred (log entry 6). -/
def Obligations.MessageCompletion : Prop :=
  ∀ (s : State) (n : Nat) (got : List Byte) (pe fe : Bool) (b : Byte) (tail : List Bool) (err : ByteError),
    s.rest = [] → readFrame s.settings.line.parity (frameBits b tail) = some (b, err) → s.ctl.rx = .body n got pe fe →
    got.length + 1 = n → 2 ≤ n →
    let parity := pe || err = .parity || err = .both
    let framing := fe || err = .framing || err = .both
    let hunting : State := { s with ctl := { s.ctl with rx := .hunt } }
    (parity = false → framing = false → ∀ kind tag body, got ++ [b] = kind :: tag :: body →
      (s.ctl.buffer.length < 4 → exec (.controlMessageReceived b tail) s = .next { s with ctl := { s.ctl with
        rx := .hunt, buffer := s.ctl.buffer ++ [⟨kind, tag, body⟩] } }) ∧
      (4 ≤ s.ctl.buffer.length → exec (.controlMessageReceived b tail) s =
        .next ({ hunting with ctl := { hunting.ctl with overrun := true } }.notify .lineOverrun))) ∧
    (parity = true → framing = false →
      exec (.controlMessageReceived b tail) s = .next (hunting.notify (.lineError .parity))) ∧
    (parity = false → framing = true →
      exec (.controlMessageReceived b tail) s = .next (hunting.notify (.lineError .framing))) ∧
    (parity = true → framing = true → ∃ cause, (cause = .parity ∨ cause = .framing) ∧
      exec (.controlMessageReceived b tail) s =
        .next ({ hunting with freeCount := s.freeCount + 1 }.notify (.lineError cause)))

/-- The end of a control message: an answer frees its slot and puts an accepted SET LINE's settings into effect, the
message then being received abandoned as for a gap; the transmitter next takes a waiting answer, or else the head
notice. That the abandoned message's notice has cause GAP, whatever its bytes, and that the transmitter chooses before
that notice is generated are the model's choices (log entries 11 and 35). -/
def Obligations.ControlTransmissionEnds : Prop :=
  ∀ s : State, s.rest = [] →
    (s.ctl.tx = .idle → exec .controlTransmitEnd s = .next s) ∧
    (s.ctl.tx = .answer → s.ctl.newLine = none → exec .controlTransmitEnd s = .next { s with ctl := { s.ctl with
      answer := none
      notices := s.ctl.notices.tail
      tx := match s.ctl.notices with
        | [] => .idle
        | n :: _ => .notice n } }) ∧
    (∀ n, s.ctl.tx = .notice n → exec .controlTransmitEnd s = .next { s with ctl := { s.ctl with
      notices := if s.ctl.answer.isSome then s.ctl.notices else s.ctl.notices.tail
      tx := match s.ctl.answer, s.ctl.notices with
        | some _, _ => .answer
        | none, [] => .idle
        | none, m :: _ => .notice m } }) ∧
    (∀ line, s.ctl.tx = .answer → s.ctl.newLine = some line →
      let ended : State := { s with
        settings := { s.settings with line := line }
        ctl := { s.ctl with
          answer := none
          newLine := none
          notices := s.ctl.notices.tail
          tx := match s.ctl.notices with
            | [] => .idle
            | n :: _ => .notice n } }
      (s.ctl.rx = .hunt → exec .controlTransmitEnd s = .next ended) ∧
      (s.ctl.rx ≠ .hunt → exec .controlTransmitEnd s =
        .next ({ ended with ctl := { ended.ctl with rx := .hunt } }.notify (.lineError .gap))))

/-! ## Orders -/

/-- Every order is first checked for its kind, its body length and the mode, in that order, and a refusal answers the
code alone; with no order takeable, or the oldest of another kind, an order's row changes nothing. That last is the
model's reading of rows without operands (log entry 7). -/
def Obligations.OrdersAreAdmittedInOrder : Prop :=
  (∀ (s : State) (o : Message), OrderReady s o → o.kind.toNat = 0 ∨ 0x11 < o.kind.toNat →
    exec .unknownOrder s = .next (s.answered o .unknownOrder [])) ∧
  (∀ (s : State) (o : Message) (r : OrderRow), OrderReady s o → r ∈ orderCatalogue → o.kind.toNat = r.kind →
    (o.body.length < r.least ∨ r.greatest < o.body.length ∧ r.kind ≠ 0x04 →
      exec r.row s = .next (s.answered o .length [])) ∧
    (r.least ≤ o.body.length → o.body.length ≤ r.greatest → r.admits s.mode = false →
      exec r.row s = .next (s.answered o .mode []))) ∧
  ∀ (s : State) (r : OrderRow), s.rest = [] → r ∈ orderCatalogue →
    (s.ctl.proc ≠ .idle ∨ s.ctl.answer ≠ none ∨ s.ctl.buffer = [] ∨
      (∃ o, s.ctl.buffer.head? = some o ∧ o.kind.toNat ≠ r.kind) → exec r.row s = .next s) ∧
    (s.ctl.proc ≠ .idle ∨ s.ctl.answer ≠ none ∨ s.ctl.buffer = [] ∨
      (∃ o, s.ctl.buffer.head? = some o ∧ o.kind.toNat = r.kind) → exec .unknownOrder s = .next s)

/-- IDENTIFY, READ STATUS, GET PROFILE, QUERY and READ HISTORY answer what they report and change nothing else, in
every mode; a GET PROFILE above 15 is refused with RANGE and a QUERY of a FREE channel with NOT_OPEN. The order of the
bytes of GET PROFILE's per-kind values is the model's reading (log entry 8), as are the codes 0 and 1 of QUERY's values
that say yes or no (log entry 9) and that QUERY answers no gain (log entry 26). -/
def Obligations.ReportsAnswerAndChangeNothing : Prop :=
  ∀ (s : State) (o : Message), OrderReady s o →
    (o.kind = 0x01 → o.body = [] → exec .identify s = .next (s.answered o .ok [0x4D, 0x57, 0x10, 0xA0, 1])) ∧
    (o.kind = 0x02 → o.body = [] → exec .readStatus s = .next (s.answered o .ok
      ([byte s.mode.code, byte s.hw.sync.code, byte s.link.state.code, byte s.eng.load.state.code, s.ctl.flags,
        if s.ctl.overrun then 1 else 0] ++
        ([(allChannels.filter fun ch => (s.chan[ch]).isSome).length, s.link.errLength, s.link.errFormat,
          s.link.errUnknownTag, s.link.errNotAccepting].flatMap fun n => [byte (n / 256), byte n])))) ∧
    (∀ n : Byte, o.kind = 0x06 → o.body = [n] →
      (16 ≤ n.toNat → exec .getProfile s = .next (s.answered o .range [])) ∧
      ∀ h : n.toNat < 16, exec .getProfile s = .next (s.answered o .ok (s.profiles[n.toNat]).bytes)) ∧
    (∀ ch : Chan, o.kind = 0x0B → o.body = [byte ch.val] →
      (s.chan[ch] = none → exec .query s = .next (s.answered o .notOpen [])) ∧
      ∀ c, s.chan[ch] = some c → exec .query s = .next (s.answered o .ok
        ([byte c.state.code, byte (c.tag.val / 256), byte c.tag.val, byte c.highway.val, byte c.timeslot.val,
          byte c.profile.val, byte c.phiUp.val, byte c.phiDn.val, byte c.blockLen, byte c.nUp,
          byte (rateCode (some c.upRate)), c.upSeq, if c.adjust.isSome then 1 else 0, byte c.playout.code,
          if c.started then 0 else 1, byte c.queue.length, if c.expected.isSome then 1 else 0, c.expected.getD 0,
          byte c.output.code, byte c.concealIndex, if c.request.isSome then 1 else 0,
          byte ((c.request.map fun q => q.token.val).getD 0)] ++
          allKinds.map (fun k => byte (c.fault k).state.code) ++ c.stats.bytes))) ∧
    (o.kind = 0x0D → o.body = [] →
      exec .readHistory s = .next (s.answered o .ok (byte s.history.length :: s.history.flatMap HistoryRecord.bytes)))

/-- SET MODE takes the mode in force and whether a channel is open to the mode and answer the table of R169 gives, and
changes nothing else; a value above 2 is refused with RANGE. In the cells the table marks as states the part does not
reach the result is the model's choice (log entry 18). -/
def Obligations.SetModeFollowsTable : Prop :=
  ∀ (s : State) (o : Message) (m : Byte), OrderReady s o → o.kind = 0x03 → o.body = [m] →
    let someOpen := ∃ ch : Chan, s.chan[ch] ≠ none
    let accepted := fun (after : Mode) => exec .setMode s = .next ({ s with mode := after }.answered o .ok [byte after.code])
    let refused := fun (r : Result) => exec .setMode s = .next (s.answered o r [])
    (2 < m.toNat → refused .range) ∧
    (m = 1 → accepted .service) ∧
    (m = 0 → s.mode = .setup → accepted .setup) ∧
    (m = 0 → s.mode = .service → (someOpen → refused .mode) ∧ (¬ someOpen → accepted .setup)) ∧
    (m = 0 → s.mode = .drain → refused .mode) ∧
    (m = 2 → s.mode = .setup → refused .mode) ∧
    (m = 2 → s.mode = .service → (someOpen → accepted .drain) ∧ (¬ someOpen → accepted .setup)) ∧
    (m = 2 → s.mode = .drain → accepted .drain)

/-- SET HIGHWAY in SETUP replaces the whole record of the highway when every value is in its range, and is refused with
RANGE otherwise; it is refused with MODE outside SETUP. The codes of the enable value are the model's reading (log
entry 9). -/
def Obligations.SetHighwayReplacesRecord : Prop :=
  ∀ (s : State) (o : Message) (h en law : Byte) (list : List Byte), OrderReady s o → o.kind = 0x04 →
    o.body = h :: en :: law :: list →
    (s.mode ≠ .setup → exec .setHighway s = .next (s.answered o .mode [])) ∧
    (s.mode = .setup →
      (7 < h.toNat ∨ 1 < en.toNat ∨ 1 < law.toNat ∨ 32 < list.length ∨ (∃ b ∈ list, 31 < b.toNat) →
        exec .setHighway s = .next (s.answered o .range [])) ∧
      ∀ hh : h.toNat < 8, en.toNat ≤ 1 → law.toNat ≤ 1 → list.length ≤ 32 → (∀ b ∈ list, b.toNat ≤ 31) →
        ∃ rec : HighwayRecord, rec.enabled = decide (en = 0) ∧ rec.law = (if law = 0 then .aLaw else .muLaw) ∧
          (∀ n : Timeslot, rec.reserved[n] = decide (∃ b ∈ list, b.toNat = n.val)) ∧
          exec .setHighway s =
            .next ({ s with hw := { s.hw with records := s.hw.records.set h.toNat rec } }.answered o .ok []))

/-- SET PROFILE checks the profile number, P0, the field and the value's range in that order; an accepted one writes
that one field, as GET PROFILE then reads it, clears the marker, and changes no channel and nothing else. The field
numbers are the model's reading (log entry 8). -/
def Obligations.SetProfileWritesOneField : Prop :=
  ∀ (s : State) (o : Message) (n f hi lo : Byte), OrderReady s o → o.kind = 0x05 → o.body = [n, f, hi, lo] →
    let v := (BitVec.ofNat 16 (256 * hi.toNat + lo.toNat)).toInt
    let range := fieldRange f.toNat
    (16 ≤ n.toNat → exec .setProfile s = .next (s.answered o .range [])) ∧
    (n = 0 → exec .setProfile s = .next (s.answered o .protectedProfile [])) ∧
    ∀ hn : n.toNat < 16, n ≠ 0 →
      (39 ≤ f.toNat ∨ v < range.1 ∨ range.2 < v → exec .setProfile s = .next (s.answered o .range [])) ∧
      (f.toNat < 39 → range.1 ≤ v → v ≤ range.2 → ∃ p : Profile, p.defaulted = false ∧
        p.bytes = (((s.profiles[n.toNat]).bytes.set (2 * f.toNat) hi).set (2 * f.toNat + 1) lo).set 78 0 ∧
        exec .setProfile s = .next ({ s with profiles := s.profiles.set n.toNat p }.answered o .ok []))

/-- SET DEVICE writes one of the nine settings when the value is in its range, HISTORY_STYLE in SETUP alone; an accepted
SET LINE leaves the settings in force until its answer has been sent; refused orders change nothing. -/
def Obligations.SetDeviceAndSetLine : Prop :=
  ∀ (s : State) (o : Message), OrderReady s o →
    (∀ n hi lo : Byte, o.kind = 0x07 → o.body = [n, hi, lo] →
      let v := 256 * hi.toNat + lo.toNat
      let written := fun (d : DeviceSettings) => exec .setDevice s = .next ({ s with settings := d }.answered o .ok [])
      let refused := fun (r : Result) => exec .setDevice s = .next (s.answered o r [])
      (8 < n.toNat → refused .range) ∧
      (n = 0 → s.mode ≠ .setup → refused .mode) ∧
      (n = 0 → s.mode = .setup → (v = 0 → written { s.settings with historyStyle := .wrap }) ∧
        (v = 1 → written { s.settings with historyStyle := .keepFirst }) ∧
        (v = 2 → written { s.settings with historyStyle := .off }) ∧ (2 < v → refused .range)) ∧
      (n = 1 → (1 ≤ v → v ≤ 1000 → written { s.settings with loadLimit := v }) ∧
        (v = 0 ∨ 1000 < v → refused .range)) ∧
      ∀ k : Fin 7, n.toNat = k.val + 2 →
        (v ≤ 3 → written { s.settings with levels := s.settings.levels.set k v }) ∧ (3 < v → refused .range)) ∧
    ∀ sp pa : Byte, o.kind = 0x11 → o.body = [sp, pa] →
      (4 < sp.toNat ∨ 2 < pa.toNat → exec .setLine s = .next (s.answered o .range [])) ∧
      ∀ line : LineSettings, speedOfCode sp.toNat = some line.speed → parityOfCode pa.toNat = some line.parity →
        exec .setLine s = .next ({ s with ctl := { s.ctl with newLine := some line } }.answered o .ok [])

/-- The checks of OPEN in their order: the first that fails gives the answer, and a refused OPEN changes no state. -/
def Obligations.OpenRefusedByFirstFailingCheck : Prop :=
  ∀ (s : State) (o : Message) (ch : Chan) (t1 t0 h n p : Byte), OrderReady s o → o.kind = 0x08 →
    o.body = [byte ch.val, t1, t0, h, n, p] →
    let tag := 256 * t1.toNat + t0.toNat
    let refused := fun (r : Result) => exec .openCall s = .next (s.answered o r [])
    (s.mode ≠ .service → refused .mode) ∧
    (s.mode = .service →
      (s.eng.load.state ≠ .normal → refused .load) ∧
      (s.eng.load.state = .normal →
        (s.chan[ch] ≠ none → refused .channelBusy) ∧
        (s.chan[ch] = none →
          (4096 ≤ tag → refused .range) ∧
          ∀ ht : tag < 4096,
            (s.tagMap[tag] ≠ none → refused .tagInUse) ∧
            (s.tagMap[tag] = none →
              (8 ≤ h.toNat → refused .range) ∧
              ∀ hh : h.toNat < 8,
                ((s.hw.records[h.toNat]).enabled = false → refused .range) ∧
                ((s.hw.records[h.toNat]).enabled = true →
                  (32 ≤ n.toNat → refused .range) ∧
                  ∀ hn : n.toNat < 32,
                    ((s.hw.records[h.toNat]).reserved[n.toNat] = true → refused .slotReserved) ∧
                    ((s.hw.records[h.toNat]).reserved[n.toNat] = false →
                      (s.hw.bindings[slotNo ⟨h.toNat, hh⟩ ⟨n.toNat, hn⟩] ≠ none → refused .slotInUse) ∧
                      (s.hw.bindings[slotNo ⟨h.toNat, hh⟩ ⟨n.toNat, hn⟩] = none → 16 ≤ p.toNat →
                        refused .range)))))))

/-- An OPEN that passes every check makes its tag and timeslot entries, copies the open-time fields, takes the phases
from the smallest bucket and raises it by 2, starts its first block short, and answers OK with φdn. HIGHWAY is present
exactly while the sync is LOST and LINK exactly while the link is DOWN; a frame still in the slot is marked left-over. A
marker that was clear makes its CONFIG notice DEFAULTED, and each condition found its FAULT notice and record; that they
come before the answer, HIGHWAY before LINK, is the model's reading (log entry 10), and so are the model's own fields of
the context: the gain held is GAIN_DN, the block is 160 zeros, and the channel is marked as opened in this period (log
entry 20). -/
def Obligations.OpenSetsUpTheCall : Prop :=
  ∀ (s : State) (o : Message) (ch : Chan) (tag : Tag) (h : HighwayNo) (n : Timeslot) (p : ProfileNo) (b : Bucket),
    OrderReady s o → o.kind = 0x08 →
    o.body = [byte ch.val, byte (tag.val / 256), byte tag.val, byte h.val, byte n.val, byte p.val] →
    s.mode = .service → s.eng.load.state = .normal → s.chan[ch] = none → s.tagMap[tag] = none →
    (s.hw.records[h]).enabled = true → (s.hw.records[h]).reserved[n] = false → s.hw.bindings[slotNo h n] = none →
    (∀ x : Bucket, s.eng.buckets[b] ≤ s.eng.buckets[x]) → (∀ x : Bucket, x < b → s.eng.buckets[b] < s.eng.buckets[x]) →
    let prof := s.profiles[p]
    let phi := 10 * b.val + ch.val % 10
    let first := (phi + 319 - s.hw.c.val) % 160
    let agrees := prof.rateSet.mem prof.initialRate
    let found := (if s.hw.sync = .lost then [FaultKind.highway] else []) ++
      if s.link.state = .down then [.link] else []
    let reports : List FaultReport := found.flatMap fun k =>
      if prof.cls[k.index] = .off then [] else [⟨ch, k, prof.cls[k.index], .raised⟩]
    let told := (s.notifyAll ((if prof.defaulted = false ∧ agrees = false then [.configDefaulted ch] else [])
      ++ reports.map FaultReport.notice)).ctl
    let left := (s.link.slots[ch]).map fun sl => { sl with leftOver := true }
    ∃ t c, exec .openCall s = .next t ∧ t.chan[ch] = some c ∧ OthersKept ch s t ∧
      t.tagMap = s.tagMap.set tag (some ch) ∧
      t.hw = { s.hw with bindings := s.hw.bindings.set (slotNo h n) (some ch) } ∧
      t.eng.buckets = s.eng.buckets.set b (s.eng.buckets[b] + 2) ∧ t.eng.load = s.eng.load ∧
      t.link = { s.link with slots := s.link.slots.set ch left } ∧
      t.profiles = s.profiles.set p { prof with defaulted := prof.defaulted || !agrees } ∧
      t.mode = .service ∧ t.settings = s.settings ∧ t.due = s.due ∧ t.faultFrames[ch] = 0 ∧
      t.history = s.historyAfter reports ∧
      t.ctl = { told with
        buffer := s.ctl.buffer.tail
        answer := some ⟨0x88, o.tag, [0, byte phi]⟩
        tx := if told.tx = .idle then .answer else told.tx } ∧
      c.tag = tag ∧ c.highway = h ∧ c.timeslot = n ∧ c.profile = p ∧ c.phiDn.val = phi ∧ c.phiUp.val = phi ∧
      c.nUp = 160 - (if first = 0 then 160 else first) ∧ c.blockLen = 160 ∧
      some c.initialRate = (if agrees then some prof.initialRate else prof.rateSet.highest.or (some prof.initialRate)) ∧
      c.upRate = c.initialRate ∧ c.gainUp = prof.gainUp ∧ c.gainDn = prof.gainDn ∧ c.gainNow = prof.gainDn ∧
      c.startDepth = prof.startDepth ∧
      c.dtx = prof.dtx ∧ c.hangover = prof.hangover ∧ c.concealLimit = prof.concealLimit ∧
      c.ring = List.replicate 200 0 ∧ c.lastGood = List.replicate 160 0 ∧ c.encY = 0 ∧ c.decY = 0 ∧
      c.noiseGen = 0xACE1#16 ^^^ BitVec.ofNat 16 ch.val ∧ c.noiseLevel = none ∧ c.queue = [] ∧ c.expected = none ∧
      c.playout = .waiting ∧ c.started = false ∧ c.output = .idle ∧ c.outcome = .none ∧ c.upSeq = 0 ∧ c.stats = .zero ∧
      c.hangCount = 0 ∧ c.lastKind = .speech ∧ c.sidAge = 0 ∧ c.adjust = none ∧ c.upEcho = 0 ∧ c.rateReq = none ∧
      c.concealIndex = 0 ∧ c.starvation = 0 ∧ c.tooEarlyRun = 0 ∧ c.winCount = 0 ∧ c.winMin = none ∧ c.winLate = 0 ∧
      c.request = none ∧ c.lastToken = 0 ∧ c.drift = 0 ∧ c.window = none ∧ c.satUpWin = 0 ∧ c.satDnWin = 0 ∧
      c.missWin = 0 ∧ c.block = List.replicate 160 0 ∧ c.fresh = true ∧
      (∀ k, k ≠ .highway → k ≠ .link → c.fault k = .fresh) ∧
      (c.fault .highway).present = decide (s.hw.sync = .lost) ∧
      (c.fault .link).present = decide (s.link.state = .down) ∧
      (s.hw.sync ≠ .lost → s.link.state ≠ .down → c.state = .aligning ∧ t.history = s.history ∧ t.eng.queue = s.eng.queue)

/-- MODIFY sets both gains, in any state of the channel, and is refused with NOT_OPEN for a FREE channel and with RANGE
for a gain outside −12..+12; CLOSE takes the channel to CLOSING and holds the processor with the slot free. Both are
refused with MODE in SETUP. -/
def Obligations.ModifyAndClose : Prop :=
  ∀ (s : State) (o : Message) (ch : Chan), OrderReady s o →
    (∀ up dn : Byte, o.kind = 0x09 → o.body = [byte ch.val, up, dn] →
      (s.mode = .setup → exec .modify s = .next (s.answered o .mode [])) ∧
      (s.mode ≠ .setup →
        (s.chan[ch] = none → exec .modify s = .next (s.answered o .notOpen [])) ∧
        ∀ c, s.chan[ch] = some c →
          (up.toInt < -12 ∨ 12 < up.toInt ∨ dn.toInt < -12 ∨ 12 < dn.toInt →
            exec .modify s = .next (s.answered o .range [])) ∧
          (-12 ≤ up.toInt → up.toInt ≤ 12 → -12 ≤ dn.toInt → dn.toInt ≤ 12 → exec .modify s =
            .next ({ s with chan := s.chan.set ch (some { c with gainUp := up.toInt, gainDn := dn.toInt }) }.answered
              o .ok [])))) ∧
    (o.kind = 0x0A → o.body = [byte ch.val] →
      (s.mode = .setup → exec .close s = .next (s.answered o .mode [])) ∧
      (s.mode ≠ .setup →
        (s.chan[ch] = none → exec .close s = .next (s.answered o .notOpen [])) ∧
        ∀ c, s.chan[ch] = some c → exec .close s = .next { s with
          chan := s.chan.set ch (some { c with state := .closing })
          ctl := { s.ctl with buffer := s.ctl.buffer.tail, proc := .holding o.tag ch } }))

/-- CLEAR FAULTS returns each LATCHED or REPORTED kind whose condition is absent to NONE and recovers a FAULTED channel
left with no kind RETRYING or LATCHED, on one channel or, with 255, on every open one. It answers OK, or, where a kind
acted on remains LATCHED or REPORTED, STILL_PRESENT: for one channel with the recognised state of each of its kinds,
where that a RETRYING kind stands as such is the model's choice (log entry 38), for every channel with the count of
those that hold such a kind and the set of the kinds. The CLEARED notices and records of each channel stand in the order
of the kinds, then its CALL ACTIVE where it recovers to ACTIVE; that they come before the answer is the model's reading
(log entry 10). -/
def Obligations.ClearFaultsClearsAbsentKinds : Prop :=
  ∀ (s : State) (o : Message) (v : Byte), OrderReady s o → o.kind = 0x0C → o.body = [v] → s.mode ≠ .setup →
    let answering := fun (told : State) (a : Option Message) => { told.ctl with
      buffer := s.ctl.buffer.tail
      answer := a
      tx := if told.ctl.tx = .idle then .answer else told.ctl.tx }
    (∀ ch : Chan, v = byte ch.val → v ≠ 255 →
      (s.chan[ch] = none → exec .clearFaults s = .next (s.answered o .notOpen [])) ∧
      ∀ c, s.chan[ch] = some c → ∃ t c', exec .clearFaults s = .next t ∧ t.chan = s.chan.set ch (some c') ∧
        Cleared c c' ∧ t.history = s.historyAfter (c.clearReports ch) ∧
        t.ctl = answering (s.notifyAll (clearNotices ch c c')) t.ctl.answer ∧
        t.hw = s.hw ∧ t.eng = s.eng ∧ t.link = s.link ∧ t.tagMap = s.tagMap ∧ t.profiles = s.profiles ∧
        t.settings = s.settings ∧ t.mode = s.mode ∧ t.due = s.due ∧
        t.ctl.buffer = s.ctl.buffer.tail ∧ t.ctl.proc = .idle ∧
        ((∀ k, ¬ c'.Holds k) → t.ctl.answer = some ⟨0x8C, o.tag, [0]⟩) ∧
        ((∃ k, c'.Holds k) →
          t.ctl.answer = some ⟨0x8C, o.tag, 0x0C :: allKinds.map fun k => byte (c'.fault k).state.code⟩)) ∧
    (v = 255 → ∃ t, exec .clearFaults s = .next t ∧
      (∀ ch : Chan, s.chan[ch] = none → t.chan[ch] = none) ∧
      (∀ (ch : Chan) (c : Context), s.chan[ch] = some c → ∃ c', t.chan[ch] = some c' ∧ Cleared c c') ∧
      t.history = s.historyAfter (allChannels.flatMap fun ch => (s.chan[ch]).toList.flatMap (Context.clearReports ch)) ∧
      t.ctl = answering (s.notifyAll (allChannels.flatMap fun ch =>
        ((s.chan[ch]).toList.zip (t.chan[ch]).toList).flatMap fun p => clearNotices ch p.1 p.2)) t.ctl.answer ∧
      t.hw = s.hw ∧ t.eng = s.eng ∧ t.link = s.link ∧ t.tagMap = s.tagMap ∧ t.profiles = s.profiles ∧
      t.settings = s.settings ∧ t.mode = s.mode ∧ t.due = s.due ∧
      t.ctl.buffer = s.ctl.buffer.tail ∧ t.ctl.proc = .idle ∧
      ((∀ (ch : Chan) (c : Context) k, t.chan[ch] = some c → ¬ c.Holds k) →
        t.ctl.answer = some ⟨0x8C, o.tag, [0]⟩) ∧
      ((∃ (ch : Chan) (c : Context) (k : FaultKind), t.chan[ch] = some c ∧ c.Holds k) →
        ∃ (held : List Chan) (mask : Byte), held.Nodup ∧
          (∀ ch : Chan, ch ∈ held ↔ ∃ c k, t.chan[ch] = some c ∧ c.Holds k) ∧ mask.getLsbD 7 = false ∧
          (∀ k : FaultKind, mask.getLsbD k.index.val = true ↔
            ∃ (ch : Chan) (c : Context), t.chan[ch] = some c ∧ c.Holds k) ∧
          t.ctl.answer = some ⟨0x8C, o.tag, [0x0C, byte (held.length / 256), byte held.length, mask]⟩))

/-- CLEAR HISTORY empties the history; ACK NOTICES clears the flags its mask names, and OVERRUN with LINE, and is refused
with RANGE with bit 7 set; nothing else changes. -/
def Obligations.ClearHistoryAndAckNotices : Prop :=
  ∀ (s : State) (o : Message), OrderReady s o →
    (o.kind = 0x0E → o.body = [] → exec .clearHistory s = .next ({ s with history := [] }.answered o .ok [])) ∧
    ∀ mask : Byte, o.kind = 0x0F → o.body = [mask] →
      (mask.getLsbD 7 = true → exec .ackNotices s = .next (s.answered o .range [])) ∧
      (mask.getLsbD 7 = false → ∃ t, exec .ackNotices s = .next t ∧
        (∀ i, i < 8 → t.ctl.flags.getLsbD i = (s.ctl.flags.getLsbD i && !mask.getLsbD i)) ∧
        t.ctl.overrun = (s.ctl.overrun && !mask.getLsbD 6) ∧
        t = { s with ctl := { s.ctl with flags := t.ctl.flags, overrun := t.ctl.overrun } }.answered o .ok [])

/-- RESTART frees every channel, empties the maps, buckets, queues, engines and slots, resets the load monitor and the
error counters, clears the order buffer, the notices, the flags and OVERRUN, ends DRAIN in SETUP, and answers OK; it
keeps the highway clock, sync and records, the profiles, the settings, the history, the link state and the message being
sent. That a unit being received is kept is the model's choice (log entry 28). -/
def Obligations.RestartKeepsConfiguration : Prop :=
  ∀ (s : State) (o : Message), OrderReady s o → o.kind = 0x10 → o.body = [] →
    ∃ t, exec .restart s = .next t ∧
      (∀ ch : Chan, t.chan[ch] = none ∧ t.link.slots[ch] = none) ∧ (∀ g : Tag, t.tagMap[g] = none) ∧
      (∀ n : SlotNo, t.hw.bindings[n] = none) ∧ t.hw = { s.hw with bindings := t.hw.bindings } ∧
      t.eng.queue = [] ∧ (∀ e : EngineNo, t.eng.engines[e] = none) ∧ (∀ b : Bucket, t.eng.buckets[b] = 0) ∧
      t.eng.load = ⟨.normal, 0, 50⟩ ∧
      t.link.state = s.link.state ∧ t.link.receiving = s.link.receiving ∧ t.link.txQueue = [] ∧
      t.link.sending = none ∧ (∀ ch : Chan, t.faultFrames[ch] = 0) ∧ t.link.errLength = 0 ∧ t.link.errFormat = 0 ∧
      t.link.errUnknownTag = 0 ∧
      t.link.errNotAccepting = 0 ∧
      t.link.lastDelimiter = (if s.link.sending.isSome then .abortDelimiter else s.link.lastDelimiter) ∧
      t.history = s.history ∧ t.profiles = s.profiles ∧ t.settings = s.settings ∧
      t.mode = (if s.mode = .drain then .setup else s.mode) ∧
      t.ctl = { s.ctl with
        buffer := []
        overrun := false
        notices := []
        flags := 0
        answer := some ⟨0x90, o.tag, [0]⟩
        tx := if s.ctl.tx = .idle then .answer else s.ctl.tx } ∧
      t.due = [] ∧ t.ahead = [] ∧ t.rest = [] ∧ t.pending = s.pending

/-! ## The link codec -/

/-- Unpacking a packed SPEECH payload gives back its four scales and 160 codes, whatever values their fields admit, and
the payload has the length of its rate. -/
def Obligations.SpeechPayloadRoundTrip : Prop :=
  ∀ (r : Rate) (subs : List Subframe), subs.length = 4 →
    (∀ sf ∈ subs, sf.q < 16 ∧ sf.codes.length = 40 ∧ ∀ v ∈ sf.codes, v < 2 ^ r.bits) →
    (packPayload r subs).length = r.payloadBytes ∧ unpackPayload r (packPayload r subs) = subs

/-- A decoder that starts a frame from the y_prev the encoder held when it coded the frame rebuilds the encoder's
reconstruction sample for sample, and ends in the encoder's y_prev. -/
def Obligations.DecoderTracksEncoder : Prop :=
  ∀ (r : Rate) (y : Int) (input : List Int), input.length = 161 →
    decodeSpeech r y (encodeSpeech r y input).1 = trackBlock r.bits 4 (input.headD 0) y (input.drop 1) ∧
    (decodeSpeech r y (encodeSpeech r y input).1).length = 160 ∧
    (decodeSpeech r y (encodeSpeech r y input).1).getLastD y = (encodeSpeech r y input).2
end

