-- ==== Sys2Proof/Laws/State.lean ====
section
/-! SUPPORT. One lemma per field per update for the shared operations that write a single part of the state, and the
frames of the control line's transmit side. -/

namespace Sys2Proof.Machine

/-! ## The context of one channel -/

section modCtx
variable (ch : Chan) (f : Context → Context) (s : State)

theorem modCtx_of_none (h : s.chan[ch] = none) : s.modCtx ch f = s := by simp [State.modCtx, h]

theorem modCtx_of_some {c : Context} (h : s.chan[ch] = some c) :
    s.modCtx ch f = { s with chan := s.chan.set ch (some (f c)) } := by simp [State.modCtx, h]

/-- `modCtx` writes the channel table alone. -/
theorem modCtx_touches : s.modCtx ch f = { s with chan := (s.modCtx ch f).chan } := by
  cases h : s.chan[ch] with
  | none => rw [modCtx_of_none _ _ _ h]
  | some c => rw [modCtx_of_some _ _ _ h]

@[simp] theorem modCtx_hw : (s.modCtx ch f).hw = s.hw := by rw [modCtx_touches]
@[simp] theorem modCtx_tagMap : (s.modCtx ch f).tagMap = s.tagMap := by rw [modCtx_touches]
@[simp] theorem modCtx_eng : (s.modCtx ch f).eng = s.eng := by rw [modCtx_touches]
@[simp] theorem modCtx_link : (s.modCtx ch f).link = s.link := by rw [modCtx_touches]
@[simp] theorem modCtx_faultFrames : (s.modCtx ch f).faultFrames = s.faultFrames := by rw [modCtx_touches]
@[simp] theorem modCtx_history : (s.modCtx ch f).history = s.history := by rw [modCtx_touches]
@[simp] theorem modCtx_profiles : (s.modCtx ch f).profiles = s.profiles := by rw [modCtx_touches]
@[simp] theorem modCtx_settings : (s.modCtx ch f).settings = s.settings := by rw [modCtx_touches]
@[simp] theorem modCtx_mode : (s.modCtx ch f).mode = s.mode := by rw [modCtx_touches]
@[simp] theorem modCtx_ctl : (s.modCtx ch f).ctl = s.ctl := by rw [modCtx_touches]
@[simp] theorem modCtx_due : (s.modCtx ch f).due = s.due := by rw [modCtx_touches]
@[simp] theorem modCtx_ahead : (s.modCtx ch f).ahead = s.ahead := by rw [modCtx_touches]
@[simp] theorem modCtx_rest : (s.modCtx ch f).rest = s.rest := by rw [modCtx_touches]
@[simp] theorem modCtx_freeCount : (s.modCtx ch f).freeCount = s.freeCount := by rw [modCtx_touches]
@[simp] theorem modCtx_pending : (s.modCtx ch f).pending = s.pending := by rw [modCtx_touches]

@[simp] theorem modCtx_chan_self : (s.modCtx ch f).chan[ch] = (s.chan[ch]).map f := by
  cases h : s.chan[ch] with
  | none => rw [modCtx_of_none _ _ _ h, h]; rfl
  | some c => rw [modCtx_of_some _ _ _ h]; simp

theorem modCtx_chan_other {d : Chan} (hd : d ≠ ch) : (s.modCtx ch f).chan[d] = s.chan[d] := by
  cases h : s.chan[ch] with
  | none => rw [modCtx_of_none _ _ _ h]
  | some c =>
    rw [modCtx_of_some _ _ _ h]
    have : ch.val ≠ d.val := fun e => hd (Fin.ext e.symm)
    simp [this]

@[simp] theorem modCtx_profileOf (c : Context) : (s.modCtx ch f).profileOf c = s.profileOf c := by
  simp [State.profileOf]

end modCtx

/-! ## Notices, the history, answers and the order buffer -/

section writes
variable (b : NoticeBody) (s : State)

@[simp] theorem notify_hw : (s.notify b).hw = s.hw := rfl
@[simp] theorem notify_chan : (s.notify b).chan = s.chan := rfl
@[simp] theorem notify_tagMap : (s.notify b).tagMap = s.tagMap := rfl
@[simp] theorem notify_eng : (s.notify b).eng = s.eng := rfl
@[simp] theorem notify_link : (s.notify b).link = s.link := rfl
@[simp] theorem notify_faultFrames : (s.notify b).faultFrames = s.faultFrames := rfl
@[simp] theorem notify_history : (s.notify b).history = s.history := rfl
@[simp] theorem notify_profiles : (s.notify b).profiles = s.profiles := rfl
@[simp] theorem notify_settings : (s.notify b).settings = s.settings := rfl
@[simp] theorem notify_mode : (s.notify b).mode = s.mode := rfl
@[simp] theorem notify_due : (s.notify b).due = s.due := rfl
@[simp] theorem notify_ahead : (s.notify b).ahead = s.ahead := rfl
@[simp] theorem notify_rest : (s.notify b).rest = s.rest := rfl
@[simp] theorem notify_freeCount : (s.notify b).freeCount = s.freeCount := rfl
@[simp] theorem notify_pending : (s.notify b).pending = s.pending := rfl

variable (ch : Chan) (k : FaultKind) (cls : FaultClass) (ev : FaultEvent)

@[simp] theorem offerRecord_hw : (s.offerRecord ch k cls ev).hw = s.hw := rfl
@[simp] theorem offerRecord_chan : (s.offerRecord ch k cls ev).chan = s.chan := rfl
@[simp] theorem offerRecord_tagMap : (s.offerRecord ch k cls ev).tagMap = s.tagMap := rfl
@[simp] theorem offerRecord_eng : (s.offerRecord ch k cls ev).eng = s.eng := rfl
@[simp] theorem offerRecord_link : (s.offerRecord ch k cls ev).link = s.link := rfl
@[simp] theorem offerRecord_faultFrames : (s.offerRecord ch k cls ev).faultFrames = s.faultFrames := rfl
@[simp] theorem offerRecord_profiles : (s.offerRecord ch k cls ev).profiles = s.profiles := rfl
@[simp] theorem offerRecord_settings : (s.offerRecord ch k cls ev).settings = s.settings := rfl
@[simp] theorem offerRecord_mode : (s.offerRecord ch k cls ev).mode = s.mode := rfl
@[simp] theorem offerRecord_ctl : (s.offerRecord ch k cls ev).ctl = s.ctl := rfl
@[simp] theorem offerRecord_due : (s.offerRecord ch k cls ev).due = s.due := rfl
@[simp] theorem offerRecord_ahead : (s.offerRecord ch k cls ev).ahead = s.ahead := rfl
@[simp] theorem offerRecord_rest : (s.offerRecord ch k cls ev).rest = s.rest := rfl
@[simp] theorem offerRecord_freeCount : (s.offerRecord ch k cls ev).freeCount = s.freeCount := rfl
@[simp] theorem offerRecord_pending : (s.offerRecord ch k cls ev).pending = s.pending := rfl

variable (o : Message) (r : Result) (more : List Byte)

@[simp] theorem answer_hw : (s.answer o r more).hw = s.hw := rfl
@[simp] theorem answer_chan : (s.answer o r more).chan = s.chan := rfl
@[simp] theorem answer_tagMap : (s.answer o r more).tagMap = s.tagMap := rfl
@[simp] theorem answer_eng : (s.answer o r more).eng = s.eng := rfl
@[simp] theorem answer_link : (s.answer o r more).link = s.link := rfl
@[simp] theorem answer_faultFrames : (s.answer o r more).faultFrames = s.faultFrames := rfl
@[simp] theorem answer_history : (s.answer o r more).history = s.history := rfl
@[simp] theorem answer_profiles : (s.answer o r more).profiles = s.profiles := rfl
@[simp] theorem answer_settings : (s.answer o r more).settings = s.settings := rfl
@[simp] theorem answer_mode : (s.answer o r more).mode = s.mode := rfl
@[simp] theorem answer_due : (s.answer o r more).due = s.due := rfl
@[simp] theorem answer_ahead : (s.answer o r more).ahead = s.ahead := rfl
@[simp] theorem answer_rest : (s.answer o r more).rest = s.rest := rfl
@[simp] theorem answer_freeCount : (s.answer o r more).freeCount = s.freeCount := rfl
@[simp] theorem answer_pending : (s.answer o r more).pending = s.pending := rfl

end writes

/-! ## The transmit side of the control line -/

section control
variable (ctl : ControlLine) (n : Notice) (m : Message)

/-- Choosing writes the transmitter and the notice queue alone. -/
theorem choose_touches : ctl.choose = { ctl with tx := ctl.choose.tx, notices := ctl.choose.notices } := by
  obtain ⟨rx, buffer, overrun, proc, answer, notices, tx, flags, newLine⟩ := ctl
  cases tx <;> cases answer <;> cases notices <;> rfl

@[simp] theorem choose_rx : ctl.choose.rx = ctl.rx := by rw [choose_touches]
@[simp] theorem choose_buffer : ctl.choose.buffer = ctl.buffer := by rw [choose_touches]
@[simp] theorem choose_overrun : ctl.choose.overrun = ctl.overrun := by rw [choose_touches]
@[simp] theorem choose_proc : ctl.choose.proc = ctl.proc := by rw [choose_touches]
@[simp] theorem choose_answer : ctl.choose.answer = ctl.answer := by rw [choose_touches]
@[simp] theorem choose_flags : ctl.choose.flags = ctl.flags := by rw [choose_touches]
@[simp] theorem choose_newLine : ctl.choose.newLine = ctl.newLine := by rw [choose_touches]

@[simp] theorem generate_rx : (ctl.generate n).rx = ctl.rx := by simp [ControlLine.generate]
@[simp] theorem generate_buffer : (ctl.generate n).buffer = ctl.buffer := by simp [ControlLine.generate]
@[simp] theorem generate_overrun : (ctl.generate n).overrun = ctl.overrun := by simp [ControlLine.generate]
@[simp] theorem generate_proc : (ctl.generate n).proc = ctl.proc := by simp [ControlLine.generate]
@[simp] theorem generate_answer : (ctl.generate n).answer = ctl.answer := by simp [ControlLine.generate]
@[simp] theorem generate_newLine : (ctl.generate n).newLine = ctl.newLine := by simp [ControlLine.generate]
@[simp] theorem generate_flags : (ctl.generate n).flags = ctl.flags ||| flagBit n.body.cls := by
  simp [ControlLine.generate]

@[simp] theorem notify_ctl (b : NoticeBody) (s : State) :
    (s.notify b).ctl = s.ctl.generate ⟨s.settings.levels[b.cls], s.hw.cycle, b⟩ := rfl

/-- Placing an answer starts an idle transmitter on it and leaves a busy one. -/
theorem placeAnswer_eq : ctl.placeAnswer m =
    { ctl with answer := some m, tx := if ctl.tx = .idle then .answer else ctl.tx } := by
  unfold ControlLine.placeAnswer ControlLine.choose
  cases h : ctl.tx <;> simp

theorem answer_ctl (s : State) (o : Message) (r : Result) (more : List Byte) :
    (s.answer o r more).ctl = { s.ctl with
      answer := some (answerTo o r more), tx := if s.ctl.tx = .idle then .answer else s.ctl.tx } :=
  placeAnswer_eq _ _

/-- An order taken and answered is the order answered, as the statements say it. -/
theorem takeOrder_answer (s : State) (o : Message) (r : Result) (more : List Byte) :
    s.takeOrder.answer o r more = s.answered o r more := by
  unfold State.answered State.answer
  rw [placeAnswer_eq]
  rfl

end control

/-! ## Frames -/

theorem KeepsSetting.refl (s : State) : KeepsSetting s s := by constructor <;> rfl

theorem KeepsSetting.trans {s t u : State} (h : KeepsSetting s t) (k : KeepsSetting t u) : KeepsSetting s u where
  hw := by rw [k.hw, h.hw]
  tagMap := k.tagMap.trans h.tagMap
  profiles := k.profiles.trans h.profiles
  settings := k.settings.trans h.settings
  mode := k.mode.trans h.mode
  freeCount := k.freeCount.trans h.freeCount
  pending := k.pending.trans h.pending
  ahead := k.ahead.trans h.ahead
  linkState := k.linkState.trans h.linkState
  receiving := k.receiving.trans h.receiving
  errLength := k.errLength.trans h.errLength
  errFormat := k.errFormat.trans h.errFormat
  errUnknownTag := k.errUnknownTag.trans h.errUnknownTag
  errNotAccepting := k.errNotAccepting.trans h.errNotAccepting
  rx := k.rx.trans h.rx
  buffer := k.buffer.trans h.buffer
  overrun := k.overrun.trans h.overrun
  proc := k.proc.trans h.proc
  answer := k.answer.trans h.answer
  newLine := k.newLine.trans h.newLine

theorem OthersKept.refl (ch : Chan) (s : State) : OthersKept ch s s := fun _ _ => ⟨rfl, rfl⟩

theorem OthersKept.trans {ch : Chan} {s t u : State} (h : OthersKept ch s t) (k : OthersKept ch t u) :
    OthersKept ch s u := fun d hd =>
  ⟨(k d hd).1.trans (h d hd).1, (k d hd).2.trans (h d hd).2⟩

theorem keeps_modCtx (ch : Chan) (f : Context → Context) (s : State) : KeepsSetting s (s.modCtx ch f) := by
  constructor <;> simp

theorem others_modCtx (ch : Chan) (f : Context → Context) (s : State) : OthersKept ch s (s.modCtx ch f) :=
  fun _ hd => ⟨modCtx_chan_other ch f s hd, by simp⟩

theorem keeps_notify (b : NoticeBody) (s : State) : KeepsSetting s (s.notify b) := by
  constructor <;> simp

theorem keeps_offerRecord (ch : Chan) (k : FaultKind) (cls : FaultClass) (ev : FaultEvent) (s : State) :
    KeepsSetting s (s.offerRecord ch k cls ev) := by
  constructor <;> simp

end Sys2Proof.Machine
end

