-- ==== Sys2Proof/Laws/Supervision.lean ====
section
/-! SUPPORT. What the supervision operations on one channel can touch, said once: the context of that channel, the
waiting jobs and the marks of running ones, the notices and flags, and the history. -/

namespace Sys2Proof.Machine

/-- The frame of a supervision operation on one channel. -/
structure Supervised (ch : Chan) (s t : State) : Prop where
  keeps : KeepsSetting s t
  others : OthersKept ch s t
  hw : t.hw = s.hw
  link : t.link = s.link
  due : t.due = s.due
  rest : t.rest = s.rest
  buckets : t.eng.buckets = s.eng.buckets
  load : t.eng.load = s.eng.load

theorem Supervised.refl (ch : Chan) (s : State) : Supervised ch s s :=
  ⟨.refl s, .refl ch s, rfl, rfl, rfl, rfl, rfl, rfl⟩

theorem Supervised.trans {ch : Chan} {s t u : State} (h : Supervised ch s t) (k : Supervised ch t u) :
    Supervised ch s u :=
  ⟨h.keeps.trans k.keeps, h.others.trans k.others, k.hw.trans h.hw, k.link.trans h.link, k.due.trans h.due,
    k.rest.trans h.rest, k.buckets.trans h.buckets, k.load.trans h.load⟩

theorem Supervised.profileOf {ch : Chan} {s t : State} (h : Supervised ch s t) (c : Context) :
    t.profileOf c = s.profileOf c := by simp [State.profileOf, h.keeps.profiles]

theorem supervised_modCtx (ch : Chan) (f : Context → Context) (s : State) : Supervised ch s (s.modCtx ch f) :=
  ⟨keeps_modCtx ch f s, others_modCtx ch f s, by simp, by simp, by simp, by simp, by simp, by simp⟩

theorem supervised_notify (ch : Chan) (b : NoticeBody) (s : State) : Supervised ch s (s.notify b) :=
  ⟨keeps_notify b s, .refl ch s, rfl, rfl, rfl, rfl, rfl, rfl⟩

theorem supervised_offerRecord (ch d : Chan) (k : FaultKind) (cls : FaultClass) (ev : FaultEvent) (s : State) :
    Supervised ch s (s.offerRecord d k cls ev) :=
  ⟨keeps_offerRecord d k cls ev s, .refl ch s, rfl, rfl, rfl, rfl, rfl, rfl⟩

@[simp] theorem dropChannel_buckets (ch : Chan) (e : EngineBlock) : (e.dropChannel ch).buckets = e.buckets := rfl
@[simp] theorem dropChannel_load (ch : Chan) (e : EngineBlock) : (e.dropChannel ch).load = e.load := rfl
@[simp] theorem dropChannel_queue (ch : Chan) (e : EngineBlock) :
    (e.dropChannel ch).queue = e.queue.filter fun j => j.chan ≠ ch := rfl

theorem supervised_enterFaulted (ch : Chan) (s : State) : Supervised ch s (s.enterFaulted ch) := by
  unfold State.enterFaulted
  cases h : s.chan[ch] with
  | none => exact .refl ch s
  | some c =>
    have entered : ∀ c', Supervised ch s { s with
        chan := s.chan.set ch (some c'), eng := s.eng.dropChannel ch, faultFrames := s.faultFrames.set ch 0 } := by
      refine fun c' => ⟨by constructor <;> rfl, fun d hd => ?_, rfl, rfl, rfl, rfl, rfl, rfl⟩
      have : ch.val ≠ d.val := fun e => hd (Fin.ext e.symm)
      simp [this]
    simp only []
    split
    · exact entered _
    · exact entered _
    · exact .refl ch s
    · exact .refl ch s

theorem supervised_recognise (ch : Chan) (k : FaultKind) (s : State) : Supervised ch s (s.recognise ch k) := by
  unfold State.recognise
  cases h : s.chan[ch] with
  | none => exact .refl ch s
  | some c =>
    simp only []
    have raised := fun (f : Context → Context) (cls : FaultClass) =>
      ((supervised_modCtx ch f s).trans (supervised_notify ch (.faultRaised ch k) _)).trans
        (supervised_offerRecord ch ch k cls .raised _)
    split
    · exact .refl ch s
    · exact raised _ _
    · exact (raised _ _).trans (supervised_enterFaulted ch _)
    · exact (raised _ _).trans (supervised_enterFaulted ch _)

theorem supervised_findPresent (ch : Chan) (k : FaultKind) (s : State) : Supervised ch s (s.findPresent ch k) := by
  unfold State.findPresent
  cases s.chan[ch] with
  | none => exact .refl ch s
  | some c =>
    simp only []
    split
    · exact .refl ch s
    · split
      · exact (supervised_modCtx ch _ s).trans (supervised_recognise ch k _)
      · exact supervised_modCtx ch _ s

theorem supervised_setAbsent (ch : Chan) (k : FaultKind) (s : State) : Supervised ch s (s.setAbsent ch k) :=
  supervised_modCtx ch _ s

theorem supervised_judge (ch : Chan) (k : FaultKind) (p : Bool) (s : State) : Supervised ch s (s.judge ch k p) := by
  unfold State.judge
  split
  · exact supervised_findPresent ch k s
  · exact supervised_setAbsent ch k s

theorem supervised_clearKind (ch : Chan) (k : FaultKind) (s : State) : Supervised ch s (s.clearKind ch k) := by
  unfold State.clearKind
  cases s.chan[ch] with
  | none => exact .refl ch s
  | some c =>
    exact ((supervised_modCtx ch _ s).trans (supervised_notify ch _ _)).trans (supervised_offerRecord ch ch k _ _ _)

theorem supervised_recoverIfClear (ch : Chan) (s : State) : Supervised ch s (s.recoverIfClear ch) := by
  unfold State.recoverIfClear
  cases s.chan[ch] with
  | none => exact .refl ch s
  | some c =>
    simp only []
    split
    · split
      · exact (supervised_modCtx ch _ s).trans (supervised_notify ch _ _)
      · exact supervised_modCtx ch _ s
    · exact .refl ch s

theorem supervised_foldl {α : Type} (ch : Chan) (f : State → α → State) (hf : ∀ s a, Supervised ch s (f s a)) :
    ∀ (xs : List α) (s : State), Supervised ch s (xs.foldl f s)
  | [], s => .refl ch s
  | x :: xs, s => (hf s x).trans (supervised_foldl ch f hf xs (f s x))

theorem supervised_expireKind (ch : Chan) (s : State) (k : FaultKind) : Supervised ch s (State.expireKind ch s k) := by
  unfold State.expireKind
  cases s.chan[ch] with
  | none => exact .refl ch s
  | some c =>
    simp only []
    split
    · split
      · exact ((supervised_modCtx ch _ s).trans (supervised_notify ch _ _)).trans
          (supervised_offerRecord ch ch k _ _ _)
      · exact supervised_modCtx ch _ s
    · exact supervised_clearKind ch k s

theorem supervised_retryExpiry (ch : Chan) (s : State) : Supervised ch s (s.retryExpiry ch) := by
  unfold State.retryExpiry
  cases s.chan[ch] with
  | none => exact .refl ch s
  | some c =>
    exact (supervised_foldl ch _ (supervised_expireKind ch) _ s).trans (supervised_recoverIfClear ch _)

theorem supervised_clearIfAbsent (ch : Chan) (s : State) (k : FaultKind) :
    Supervised ch s (State.clearIfAbsent ch s k) := by
  unfold State.clearIfAbsent
  cases s.chan[ch] with
  | none => exact .refl ch s
  | some c =>
    simp only []
    split
    · split
      · exact .refl ch s
      · exact supervised_clearKind ch k s
    · split
      · exact .refl ch s
      · exact supervised_clearKind ch k s
    · exact .refl ch s
    · exact .refl ch s

theorem supervised_clearChannel (ch : Chan) (s : State) : Supervised ch s (s.clearChannel ch) :=
  (supervised_foldl ch _ (supervised_clearIfAbsent ch) _ s).trans (supervised_recoverIfClear ch _)

theorem supervised_supervisionWindowEnd (ch : Chan) (s : State) : Supervised ch s (s.supervisionWindowEnd ch) := by
  unfold State.supervisionWindowEnd
  cases s.chan[ch] with
  | none => exact .refl ch s
  | some c =>
    exact ((supervised_judge ch _ _ s).trans (supervised_judge ch _ _ _)).trans (supervised_modCtx ch _ _)

theorem supervised_raiseStarvation (ch : Chan) (s : State) : Supervised ch s (s.raiseStarvation ch) := by
  unfold State.raiseStarvation
  cases s.chan[ch] with
  | none => exact .refl ch s
  | some c => exact (supervised_modCtx ch _ s).trans (supervised_judge ch _ _ _)

end Sys2Proof.Machine
end

