-- ==== Sys2Proof/Laws/Work.lean ====
section
/-! SUPPORT. What placements, misses and dispatch can touch, and what each of them does to the egress slots, the transmit
queue, the job queue and the engines. -/

namespace Sys2Proof.Machine

/-- The frame of the work made for jobs and frames: nothing but channels, engines (not the buckets), the egress side of
the link, notices, flags and history. -/
structure Worked (s t : State) : Prop where
  keeps : KeepsSetting s t
  hw : t.hw = s.hw
  due : t.due = s.due
  rest : t.rest = s.rest
  buckets : t.eng.buckets = s.eng.buckets

theorem Worked.refl (s : State) : Worked s s := ⟨.refl s, rfl, rfl, rfl, rfl⟩

theorem Worked.trans {s t u : State} (h : Worked s t) (k : Worked t u) : Worked s u :=
  ⟨h.keeps.trans k.keeps, k.hw.trans h.hw, k.due.trans h.due, k.rest.trans h.rest, k.buckets.trans h.buckets⟩

theorem Supervised.worked {ch : Chan} {s t : State} (h : Supervised ch s t) : Worked s t :=
  ⟨h.keeps, h.hw, h.due, h.rest, h.buckets⟩

/-! ## The egress side of the link port -/

section egress
variable (lp : LinkPort) (ch : Chan) (f : Frame)

/-- Starting a transmission writes the transmitter alone. -/
theorem start_touches : lp.start = { lp with sending := lp.start.sending } := by
  unfold LinkPort.start
  split
  · split <;> rfl
  · rfl

@[simp] theorem start_state : lp.start.state = lp.state := by rw [start_touches]
@[simp] theorem start_receiving : lp.start.receiving = lp.receiving := by rw [start_touches]
@[simp] theorem start_errLength : lp.start.errLength = lp.errLength := by rw [start_touches]
@[simp] theorem start_errFormat : lp.start.errFormat = lp.errFormat := by rw [start_touches]
@[simp] theorem start_errUnknownTag : lp.start.errUnknownTag = lp.errUnknownTag := by rw [start_touches]
@[simp] theorem start_errNotAccepting : lp.start.errNotAccepting = lp.errNotAccepting := by rw [start_touches]
@[simp] theorem start_slots : lp.start.slots = lp.slots := by rw [start_touches]
@[simp] theorem start_txQueue : lp.start.txQueue = lp.txQueue := by rw [start_touches]
@[simp] theorem start_lastDelimiter : lp.start.lastDelimiter = lp.lastDelimiter := by rw [start_touches]

/-- A busy transmitter goes on; an idle one starts the head channel's frame in UP. -/
theorem start_sending : lp.start.sending = match lp.sending with
    | some ns => some ns
    | none => if lp.state = .up then lp.txQueue.head?.bind fun d => (lp.slots[d]).map fun sl => sl.frame.timeNs
      else none := by
  unfold LinkPort.start
  split
  · next h1 h2 h3 => split <;> simp_all
  · next h =>
    cases hs : lp.sending with
    | some ns => rfl
    | none =>
      by_cases hu : lp.state = .up
      · cases hq : lp.txQueue with
        | nil => simp
        | cons d rest => exact (h d rest hu hs hq).elim
      · simp [hu]

/-- Abandoning ends a transmission in progress with the abort delimiter. -/
theorem abandon_eq : lp.abandon = { lp with
    sending := none
    lastDelimiter := if lp.sending.isSome then .abortDelimiter else lp.lastDelimiter } := by
  unfold LinkPort.abandon
  cases h : lp.sending
  · obtain ⟨⟩ := lp; simp_all
  · simp

@[simp] theorem abandon_state : lp.abandon.state = lp.state := by rw [abandon_eq]
@[simp] theorem abandon_slots : lp.abandon.slots = lp.slots := by rw [abandon_eq]
@[simp] theorem abandon_txQueue : lp.abandon.txQueue = lp.txQueue := by rw [abandon_eq]

/-- A placement writes the slots, the transmit queue, the transmitter and the last delimiter alone. -/
theorem place_touches : lp.place ch f = { lp with
    slots := (lp.place ch f).slots
    txQueue := (lp.place ch f).txQueue
    sending := (lp.place ch f).sending
    lastDelimiter := (lp.place ch f).lastDelimiter } := by
  unfold LinkPort.place
  split
  · rw [start_touches]
  · rw [start_touches]
    split
    · simp only [abandon_eq]
    · rfl

@[simp] theorem place_state : (lp.place ch f).state = lp.state := by rw [place_touches]
@[simp] theorem place_receiving : (lp.place ch f).receiving = lp.receiving := by rw [place_touches]
@[simp] theorem place_errLength : (lp.place ch f).errLength = lp.errLength := by rw [place_touches]
@[simp] theorem place_errFormat : (lp.place ch f).errFormat = lp.errFormat := by rw [place_touches]
@[simp] theorem place_errUnknownTag : (lp.place ch f).errUnknownTag = lp.errUnknownTag := by rw [place_touches]
@[simp] theorem place_errNotAccepting : (lp.place ch f).errNotAccepting = lp.errNotAccepting := by rw [place_touches]

@[simp] theorem place_slots : (lp.place ch f).slots = lp.slots.set ch (some ⟨f, false⟩) := by
  unfold LinkPort.place
  split
  · simp
  · split <;> simp

@[simp] theorem place_txQueue :
    (lp.place ch f).txQueue = if (lp.slots[ch]).isSome then lp.txQueue else lp.txQueue ++ [ch] := by
  unfold LinkPort.place
  split
  · next h => simp [h]
  · next h => split <;> simp [h]

/-- Setting an echo writes one slot's frame alone. -/
theorem setEcho_touches (e : Token) : lp.setEcho ch e = { lp with slots := (lp.setEcho ch e).slots } := rfl

@[simp] theorem setEcho_txQueue (e : Token) : (lp.setEcho ch e).txQueue = lp.txQueue := rfl
@[simp] theorem setEcho_sending (e : Token) : (lp.setEcho ch e).sending = lp.sending := rfl
@[simp] theorem setEcho_lastDelimiter (e : Token) : (lp.setEcho ch e).lastDelimiter = lp.lastDelimiter := rfl
@[simp] theorem setEcho_state (e : Token) : (lp.setEcho ch e).state = lp.state := rfl

/-- A frame just placed takes the echo, whatever the slot held before. -/
theorem place_setEcho_slots (e : Token) :
    ((lp.place ch f).setEcho ch e).slots = lp.slots.set ch (some ⟨{ f with echo := e }, false⟩) := by
  simp [LinkPort.setEcho]

/-- The fault frame's new echo changes the link port's slots alone. -/
theorem echoFaultFrame_touches (s : State) :
    s.echoFaultFrame ch = { s with link := { s.link with slots := (s.echoFaultFrame ch).link.slots } } := by
  unfold State.echoFaultFrame
  split
  · rfl
  · split <;> rfl

end egress

/-! ## Placements and misses -/

/-- The channel and the link port right after a placement, before a DRIFT finding. -/
theorem placeFrame_eq (ch : Chan) (kind : FrameKind) (rate : Option Rate) (payload : List Byte) (s : State) {c : Context}
    (h : s.chan[ch] = some c) :
    s.placeFrame ch kind rate payload =
      let placed : State := { s with
        chan := s.chan.set ch (some (c.afterPlacement (s.link.overruns ch)))
        link := s.link.place ch (s.fillFrame c kind rate payload) }
      if c.request.isSome && (s.profileOf c).driftLimit ≤ (c.afterPlacement (s.link.overruns ch)).drift
      then placed.findPresent ch .drift else placed := by
  simp [State.placeFrame, h]

/-- The frame of a placement on one channel. -/
theorem placeFrame_frame (ch : Chan) (kind : FrameKind) (rate : Option Rate) (payload : List Byte) (s : State) :
    Worked s (s.placeFrame ch kind rate payload) ∧ OthersKept ch s (s.placeFrame ch kind rate payload) ∧
      (s.placeFrame ch kind rate payload).eng.load = s.eng.load := by
  unfold State.placeFrame
  cases h : s.chan[ch] with
  | none => exact ⟨.refl s, .refl ch s, rfl⟩
  | some c =>
    have placed : ∀ c' f, Worked s { s with chan := s.chan.set ch (some c'), link := s.link.place ch f } ∧
        OthersKept ch s { s with chan := s.chan.set ch (some c'), link := s.link.place ch f } := by
      refine fun c' f => ⟨⟨by constructor <;> simp, rfl, rfl, rfl, rfl⟩, fun d hd => ?_⟩
      have : ch.val ≠ d.val := fun e => hd (Fin.ext e.symm)
      simp [this]
    simp only []
    split
    · have sup := supervised_findPresent ch .drift { s with
        chan := s.chan.set ch (some (c.afterPlacement (s.link.overruns ch)))
        link := s.link.place ch (s.fillFrame c kind rate payload) }
      exact ⟨(placed _ _).1.trans sup.worked, (placed _ _).2.trans sup.others, sup.load⟩
    · exact ⟨(placed _ _).1, (placed _ _).2, rfl⟩

theorem loadMiss_frame (s : State) : Worked s s.loadMiss ∧ s.loadMiss.chan = s.chan ∧ s.loadMiss.link = s.link ∧
    s.loadMiss.history = s.history ∧ s.loadMiss.eng.queue = s.eng.queue ∧ s.loadMiss.eng.engines = s.eng.engines ∧
    s.loadMiss.eng.load.misses = s.eng.load.misses + 1 := by
  unfold State.loadMiss
  simp only []
  split <;> exact ⟨⟨by constructor <;> simp, rfl, rfl, rfl, rfl⟩, rfl, rfl, rfl, rfl, rfl, rfl⟩

@[simp] theorem loadMiss_faultFrames (s : State) : s.loadMiss.faultFrames = s.faultFrames := by
  unfold State.loadMiss
  simp only []
  split <;> rfl

theorem countMiss_frame (ch : Chan) (kind : JobKind) (s : State) :
    Worked s (s.countMiss ch kind) ∧ OthersKept ch s (s.countMiss ch kind) ∧ (s.countMiss ch kind).link = s.link ∧
    (s.countMiss ch kind).eng.queue = s.eng.queue ∧ (s.countMiss ch kind).eng.engines = s.eng.engines ∧
    (s.countMiss ch kind).eng.load.misses = s.eng.load.misses + 1 ∧
    (s.countMiss ch kind).chan[ch] = (s.chan[ch]).map (Context.missed kind) := by
  have l := loadMiss_frame (s.modCtx ch (Context.missed kind))
  refine ⟨(supervised_modCtx ch _ s).worked.trans l.1, ?_, ?_, ?_, ?_, ?_, ?_⟩
  · intro d hd
    refine ⟨?_, by simp [State.countMiss]⟩
    show (State.loadMiss _).chan[d] = _
    rw [l.2.1, modCtx_chan_other ch _ s hd]
  · exact (l.2.2.1).trans (by simp)
  · exact (l.2.2.2.2.1).trans (by simp)
  · exact (l.2.2.2.2.2.1).trans (by simp)
  · exact (l.2.2.2.2.2.2).trans (by simp)
  · show (State.loadMiss _).chan[ch] = _
    rw [l.2.1, modCtx_chan_self]

theorem missJob_frame (ch : Chan) (kind : JobKind) (s : State) :
    Worked s (s.missJob ch kind) ∧ OthersKept ch s (s.missJob ch kind) := by
  cases kind with
  | encode =>
    have p := placeFrame_frame ch .noData none [] s
    have m := countMiss_frame ch .encode (s.placeFrame ch .noData none [])
    exact ⟨p.1.trans m.1, p.2.1.trans m.2.1⟩
  | decode =>
    have m := countMiss_frame ch .decode (s.modCtx ch fun c => { c with outcome := c.outcome.miss })
    exact ⟨(supervised_modCtx ch _ s).worked.trans m.1, (others_modCtx ch _ s).trans m.2.1⟩

/-! ## Dispatch -/

theorem worked_startJob (e : EngineNo) (j : Job) (now : Nat) (s : State) : Worked s (s.startJob e j now) :=
  ⟨by constructor <;> rfl, rfl, rfl, rfl, rfl⟩

theorem worked_dispatchLoop (now : Nat) : ∀ (n : Nat) (s : State), Worked s (s.dispatchLoop now n)
  | 0, s => .refl s
  | n + 1, s => by
    unfold State.dispatchLoop
    split
    · next j rest e hq he =>
      have popped : Worked s { s with eng := { s.eng with queue := rest } } := ⟨by constructor <;> rfl, rfl, rfl, rfl, rfl⟩
      simp only []
      split
      · exact (popped.trans (worked_startJob e j now _)).trans (worked_dispatchLoop now n _)
      · exact (popped.trans (missJob_frame j.chan j.kind _).1).trans (worked_dispatchLoop now n _)
    · exact .refl s

theorem worked_dispatch (now : Nat) (s : State) : Worked s (s.dispatch now) := worked_dispatchLoop now _ s

theorem worked_submit (j : Job) (now : Nat) (s : State) : Worked s (s.submit j now) := by
  have queued : Worked s { s with eng := { s.eng with queue := insertJob j s.eng.queue } } :=
    ⟨by constructor <;> rfl, rfl, rfl, rfl, rfl⟩
  exact queued.trans (worked_dispatch now _)

/-- With no engine idle nothing is dispatched. -/
theorem dispatchLoop_of_busy (now n : Nat) (s : State) (h : s.eng.idleEngine = none) : s.dispatchLoop now n = s := by
  cases n with
  | zero => rfl
  | succ n =>
    unfold State.dispatchLoop
    split
    · next hq he => rw [h] at he; exact absurd he (by simp)
    · rfl

/-- With nothing waiting nothing is dispatched. -/
theorem dispatchLoop_of_empty (now n : Nat) (s : State) (h : s.eng.queue = []) : s.dispatchLoop now n = s := by
  cases n with
  | zero => rfl
  | succ n =>
    unfold State.dispatchLoop
    split
    · next hq he => rw [h] at hq; exact absurd hq (by simp)
    · rfl

/-- A submission with no engine idle waits at its place. -/
theorem submit_of_busy (j : Job) (now : Nat) (s : State) (h : s.eng.idleEngine = none) :
    s.submit j now = { s with eng := { s.eng with queue := insertJob j s.eng.queue } } :=
  dispatchLoop_of_busy now _ _ h

/-- A submission that finds nothing waiting and an engine idle starts there, if it can meet its deadline. -/
theorem submit_of_idle (j : Job) (now : Nat) (s : State) {e : EngineNo} (hq : s.eng.queue = [])
    (he : s.eng.idleEngine = some e) (hd : now + j.durationNs ≤ j.deadline) :
    s.submit j now = s.startJob e j now := by
  have idle : ({ s.eng with queue := [j] } : EngineBlock).idleEngine = some e := he
  simp only [State.submit, State.dispatch, hq, insertJob, List.length_singleton, State.dispatchLoop]
  rw [idle]
  simp only [hd, if_true]
  unfold State.startJob
  obtain ⟨hw, chan, tagMap, eng, link, faultFrames, history, profiles, settings, mode, ctl, due, ahead, rest, freeCount,
    pending⟩ := s
  obtain ⟨queue, engines, buckets, load⟩ := eng
  subst hq
  rfl

end Sys2Proof.Machine
end

