-- ==== Sys2Proof/Laws/Events.lean ====
section
/-! SUPPORT. The rest of an event and the events raised at a period start: that finishing leaves nothing over, what a row
does when its event is due or is the rest of the last one, the frames of an observation window's end, what is left to do
at the end of a period, how the next one begins, and what a byte's frame on the control line is read as. -/

namespace Sys2Proof.Machine

/-! ## Finishing the event last taken -/

/-- The state is its own with an empty rest, where it has none. -/
theorem with_rest_nil (s : State) (h : s.rest = []) : { s with rest := [] } = s := by
  obtain ⟨⟩ := s
  simp_all

/-- With nothing left of an event, finishing changes nothing. -/
@[simp] theorem finish_of_rest_nil (s : State) (h : s.rest = []) : s.finish = s := by
  unfold State.finish
  rw [h]
  exact with_rest_nil s h

/-- The frame of the end of an observation window: a profile's marker beside what supervision touches. -/
structure Observed (ch : Chan) (s t : State) : Prop where
  others : OthersKept ch s t
  hw : t.hw = s.hw
  link : t.link = s.link
  due : t.due = s.due
  ahead : t.ahead = s.ahead
  rest : t.rest = s.rest
  tagMap : t.tagMap = s.tagMap
  settings : t.settings = s.settings
  mode : t.mode = s.mode
  freeCount : t.freeCount = s.freeCount
  pending : t.pending = s.pending
  buckets : t.eng.buckets = s.eng.buckets
  load : t.eng.load = s.eng.load
  rx : t.ctl.rx = s.ctl.rx
  buffer : t.ctl.buffer = s.ctl.buffer
  overrun : t.ctl.overrun = s.ctl.overrun
  proc : t.ctl.proc = s.ctl.proc
  answer : t.ctl.answer = s.ctl.answer
  newLine : t.ctl.newLine = s.ctl.newLine

theorem Supervised.observed {ch : Chan} {s t : State} (h : Supervised ch s t) : Observed ch s t :=
  ⟨h.others, h.hw, h.link, h.due, h.keeps.ahead, h.rest, h.keeps.tagMap, h.keeps.settings, h.keeps.mode, h.keeps.freeCount,
    h.keeps.pending, h.buckets, h.load, h.keeps.rx, h.keeps.buffer, h.keeps.overrun, h.keeps.proc, h.keeps.answer,
    h.keeps.newLine⟩

theorem Observed.trans {ch : Chan} {s t u : State} (h : Observed ch s t) (k : Observed ch t u) : Observed ch s u :=
  ⟨h.others.trans k.others, k.hw.trans h.hw, k.link.trans h.link, k.due.trans h.due, k.ahead.trans h.ahead, k.rest.trans h.rest,
    k.tagMap.trans h.tagMap, k.settings.trans h.settings, k.mode.trans h.mode, k.freeCount.trans h.freeCount,
    k.pending.trans h.pending, k.buckets.trans h.buckets, k.load.trans h.load, k.rx.trans h.rx,
    k.buffer.trans h.buffer, k.overrun.trans h.overrun, k.proc.trans h.proc, k.answer.trans h.answer,
    k.newLine.trans h.newLine⟩

theorem observed_markDefaulted (ch d : Chan) (p : ProfileNo) (s : State) : Observed ch s (s.markDefaulted d p) := by
  unfold State.markDefaulted
  split
  · exact (Supervised.refl ch s).observed
  · constructor <;> first | exact fun _ _ => ⟨rfl, rfl⟩ | simp

theorem observed_compareBand (ch : Chan) (s : State) : Observed ch s (s.compareBand ch) := by
  unfold State.compareBand
  cases s.chan[ch] with
  | none => exact (Supervised.refl ch s).observed
  | some c =>
    simp only []
    have marked : Observed ch s
        (if (s.profileOf c).marginLo < (s.profileOf c).marginHi then s else s.markDefaulted ch c.profile) := by
      split
      · exact (Supervised.refl ch s).observed
      · exact observed_markDefaulted ch ch _ s
    split
    · exact (Supervised.refl ch s).observed
    · split
      · exact marked
      · split
        · exact marked
        · exact marked.trans (supervised_modCtx ch _ _).observed

theorem observed_observationWindowEnd (ch : Chan) (s : State) : Observed ch s (s.observationWindowEnd ch) := by
  unfold State.observationWindowEnd
  cases s.chan[ch] with
  | none => exact (Supervised.refl ch s).observed
  | some c =>
    exact ((supervised_judge ch _ _ s).observed.trans (observed_compareBand ch _)).trans
      (supervised_modCtx ch _ _).observed

/-- A step of the rest of an event leaves no rest of its own. -/
@[simp] theorem takeRest_rest (s : State) (r : Rest) : (s.takeRest r).rest = s.rest := by
  cases r with
  | supervisionWindow ch => exact (supervised_supervisionWindowEnd ch s).rest
  | retryExpiry ch => exact (supervised_retryExpiry ch s).rest
  | observationWindow ch => exact (observed_observationWindowEnd ch s).rest

@[simp] theorem foldl_takeRest_rest : ∀ (rs : List Rest) (s : State), (rs.foldl State.takeRest s).rest = s.rest
  | [], _ => rfl
  | r :: rs, s => (foldl_takeRest_rest rs (s.takeRest r)).trans (takeRest_rest s r)

/-- Finishing leaves nothing over. -/
@[simp] theorem finish_rest (s : State) : s.finish.rest = [] := foldl_takeRest_rest _ _

@[simp] theorem finish_finish (s : State) : s.finish.finish = s.finish := finish_of_rest_nil _ (finish_rest s)

/-- A row that is the first of the rest takes it and leaves what stands after it. -/
theorem takeRestUpTo_head (r : Rest) (rs : List Rest) (s : State) (h : s.rest = r :: rs) :
    s.takeRestUpTo r = { ({ s with rest := [] } : State).takeRest r with rest := rs } := by
  simp [State.takeRestUpTo, h]

/-! ## Events raised at a period start -/

theorem takeIfDue_of_due (d : Due) (s : State) (h : d ∈ s.due) : s.takeIfDue d = s.takeEvent d := by
  simp [State.takeIfDue, h]

theorem takeIfDue_of_not_due (d : Due) (s : State) (h : d ∉ s.due) : s.takeIfDue d = s := by
  simp [State.takeIfDue, h]

theorem commandEvent_of_due (d : Due) (s : State) (h : d ∈ s.due) : s.commandEvent d = s.takeEvent d := by
  simp [State.commandEvent, h]

/-- An event that has not been raised is noted where the next period start brings it and it is not noted yet. -/
theorem commandEvent_of_comesNext (d : Due) (s : State) (h : d ∉ s.due) (hc : s.comesNext d = true) (ha : d ∉ s.ahead) :
    s.commandEvent d = { s with ahead := s.ahead ++ [d] } := by
  simp [State.commandEvent, State.noteAhead, h, hc, ha]

/-- An event that neither this period start nor the next brings changes nothing. -/
theorem commandEvent_of_not_coming (d : Due) (s : State) (h : d ∉ s.due) (hc : s.comesNext d = false) :
    s.commandEvent d = s := by
  simp [State.commandEvent, State.noteAhead, h, hc]

/-! ## The start of a period -/

/-- The clock at a period start, field by field. -/
theorem advance_eq (s : State) : { s with hw := s.hw.advance } = s.clockMoved := rfl

/-- With nothing commanded ahead, the next period begins with the clock alone. -/
theorem beginPeriod_of_none (codes : HighwayCodes) (s : State) (h : s.ahead = []) :
    s.beginPeriod codes = s.clockMoved := by
  change s.ahead.foldl _ s.clockMoved = s.clockMoved
  rw [h]
  rfl

/-- One event commanded ahead is taken on the moved clock. -/
theorem beginPeriod_of_one (codes : HighwayCodes) (s : State) (d : Due) (h : s.ahead = [d]) :
    s.beginPeriod codes = s.clockMoved.takeAhead (s.hw.sync = .lost) codes d := by
  change s.ahead.foldl _ s.clockMoved = _
  rw [h]
  rfl

/-! ## The end of a period -/

/-- A period of at most 125 µs ends with what the part does by itself before that instant, and with the starts that its
length moves to the next period start. -/
theorem endPeriod_of_short (tNs : Nat) (s : State) (h : tNs ≤ Config.samplePeriodNs) :
    s.endPeriod tNs =
      { s.advanceTo (s.hw.periodStart + tNs) with
        eng := (s.advanceTo (s.hw.periodStart + tNs)).eng.settleStarts (s.hw.periodStart + tNs)
          (s.hw.periodStart + Config.samplePeriodNs) } := by
  simp [State.endPeriod, HighwayBlock.endOfPeriod, Nat.min_eq_left h, Nat.not_lt.mpr h]

/-- Settling the starts touches the engines alone. -/
@[simp] theorem settleStarts_queue (a b : Nat) (eng : EngineBlock) : (eng.settleStarts a b).queue = eng.queue := rfl
@[simp] theorem settleStarts_buckets (a b : Nat) (eng : EngineBlock) : (eng.settleStarts a b).buckets = eng.buckets := rfl
@[simp] theorem settleStarts_load (a b : Nat) (eng : EngineBlock) : (eng.settleStarts a b).load = eng.load := rfl
@[simp] theorem settleStarts_engine (a b : Nat) (eng : EngineBlock) (e : EngineNo) :
    (eng.settleStarts a b).engines[e] = (eng.engines[e]).map (Running.settleStart a b) := by
  simp [EngineBlock.settleStarts]

/-- Settling keeps the job, its mark and what it read. -/
@[simp] theorem settleStart_job (a b : Nat) (r : Running) : (r.settleStart a b).job = r.job := by
  unfold Running.settleStart
  split <;> rfl
@[simp] theorem settleStart_marked (a b : Nat) (r : Running) : (r.settleStart a b).marked = r.marked := by
  unfold Running.settleStart
  split <;> rfl
@[simp] theorem settleStart_read (a b : Nat) (r : Running) : (r.settleStart a b).read = r.read := by
  unfold Running.settleStart
  split <;> rfl

/-- A longer period takes, beside what comes before 125 µs after its start, the deadlines and then the completions of that
instant. -/
theorem endPeriod_of_long (tNs : Nat) (s : State) (h : Config.samplePeriodNs < tNs) :
    s.endPeriod tNs =
      ((s.advanceTo (s.hw.periodStart + Config.samplePeriodNs)).takeDeadlines
        (s.hw.periodStart + Config.samplePeriodNs)).completeBefore (s.hw.periodStart + Config.samplePeriodNs + 1) 16 := by
  simp [State.endPeriod, HighwayBlock.endOfPeriod, Nat.min_eq_right h.le, h]

/-- A deadline that has not come, or whose job no longer waits, changes nothing. -/
theorem takeDeadline_of_not_due (now : Nat) (ch : Chan) (kind : JobKind) (s : State)
    (h : s.deadlineDue now ch kind = false) : s.takeDeadline now ch kind = s := by
  simp [State.takeDeadline, h]

/-! ## Bytes on the control line -/

/-- Bits that are a frame at the receiver's parity are the byte, with its errors. -/
theorem receiveByte_of_frame (act : Byte → ByteError → State → State) (bits : List Bool) (s : State) (b : Byte)
    (err : ByteError) (h : readFrame s.settings.line.parity bits = some (b, err)) :
    s.receiveByte act bits = act b err s := by
  simp [State.receiveByte, h]

/-- Bits that are no frame at the receiver's parity are no byte. -/
theorem receiveByte_of_no_frame (act : Byte → ByteError → State → State) (bits : List Bool) (s : State)
    (h : readFrame s.settings.line.parity bits = none) : s.receiveByte act bits = s := by
  simp [State.receiveByte, h]

/-! ## Orders -/

/-- A command's order is taken and worked on when it is ready and of that command's kind. -/
theorem runOrder_of_ready (kind : Nat) (act : Message → State → State) {s : State} {o : Message} (h : OrderReady s o)
    (hk : o.kind.toNat = kind) :
    s.finish.runOrder kind act =
      if !bodyLengthOk kind o.body.length then s.answered o .length []
      else if !modeAdmits s.mode kind then s.answered o .mode []
      else act o s.takeOrder := by
  rw [finish_of_rest_nil s h.rest]
  have next : s.nextOrder = some o := by simp [State.nextOrder, h.idle, h.free, h.head]
  simp only [State.runOrder, next, hk, if_true, ← takeOrder_answer]
  rfl

/-- With the processor holding, the answer slot full, the buffer empty or another kind in front, an order's command does
nothing. -/
theorem runOrder_of_not_ready (kind : Nat) (act : Message → State → State) {s : State}
    (h : ∀ o, s.nextOrder = some o → o.kind.toNat ≠ kind) : s.runOrder kind act = s := by
  unfold State.runOrder
  split
  · rfl
  · next o ho => rw [if_neg (h o ho)]

end Sys2Proof.Machine
end

