-- ==== Sys2Proof/Tests/Slice0.lean ====
section
/-! SUPPORT. Tests of single operations and commands, with expected values from the manual's worked cases, and for each
statement with hypotheses a concrete state that meets them. -/

namespace Sys2Proof.Tests

open Sys2Proof Sys2Proof.Machine

-- One theorem at a time: each waits for the kernel, and too many waiting at once exhaust the threads.
set_option Elab.async false

/-! ## Small states -/

/-- SERVICE after reset, with the sync LOCKED and the link UP. -/
def ready : State :=
  let r := State.resetWith true false false
  { r with hw := { r.hw with sync := .locked }, link := { r.link with state := .up } }

/-- The context OPEN makes for a call on channel 5: tag 300, H1 timeslot 2, P1, phase 5, opened at C = 0. -/
def call : Context := openContext ⟨5, 300, 1, 2, 1⟩ .default 5 0

/-- `ready` with this call on channel 5. -/
def withCall (c : Context) : State :=
  let tags := ready.tagMap.set 300 (some 5)
  let binds := ready.hw.bindings.set 34 (some 5)
  { ready with
    chan := ready.chan.set 5 (some c)
    tagMap := tags
    hw := { ready.hw with bindings := binds }
    eng := { ready.eng with buckets := ready.eng.buckets.set 0 2 } }

/-- The state with events of the period start raised. -/
def raised (d : List Due) (s : State) : State := { s with due := d }

/-- The state with an order about to be taken. -/
def withOrder (o : Message) (s : State) : State :=
  { s with rest := [], ctl := { s.ctl with proc := .idle, answer := none, buffer := [o] } }

/-- The order of this kind and body, with host tag 7. -/
def order (kind : Byte) (body : List Byte) : Message := ⟨kind, 7, body⟩

theorem order_ready (o : Message) (s : State) : OrderReady (withOrder o s) o := ⟨rfl, rfl, rfl, rfl⟩

/-- The state after a command. -/
def after (i : Instr) (s : State) : State :=
  match exec i s with
  | .next t => t
  | .fault _ => s
  | .refused _ => s

/-- The channel's context satisfies a test. -/
def ctx (s : State) (p : Context → Bool) : Bool := s.chan[(5 : Chan)].any p

/-- The idle code of A-law in every timeslot. -/
def quiet : HighwayCodes := Vector.replicate 256 0xD5#8

/-- A running job of the call, started at 0. -/
def running (kind : JobKind) (input : JobInput) (marked : Bool) : Running :=
  ⟨⟨5, kind, .l24, 4000000, input⟩, 0, jobDurationNs kind .l24, marked, ⟨0, 0, .speech, 0, true, 6, 256, 0⟩⟩

/-- Every engine busy with a marked job. -/
def busy : Vector (Option Running) 4 := Vector.replicate 4 (some (running .encode (.samples []) true))

/-- The state with these engines and this queue. -/
def withJobs (engines : Vector (Option Running) 4) (queue : List Job) (s : State) : State :=
  { s with eng := { s.eng with engines := engines, queue := queue } }

/-- A waiting job of the call. -/
def job (kind : JobKind) (deadline : Nat) : Job := ⟨5, kind, .l24, deadline, .samples []⟩

/-- A playout entry. -/
def entry (seq : Byte) (kind : FrameKind) : QueueEntry :=
  ⟨seq, kind, if kind = .speech then some .l24 else none,
    if kind = .speech then List.replicate 62 0 else if kind = .sid then [10] else []⟩

/-- The call playing, with these entries and sequence 40 expected. -/
def playing (q : List QueueEntry) : Context :=
  { call with state := .active, playout := .playing, started := true, expected := some 40, queue := q }

/-- The call with the fault record of one kind. -/
def faulty (k : FaultKind) (r : FaultRecord) : Context := { (playing []).setFault k r with state := .faulted }

/-- The call with its block one sample short of full. -/
def coming : State := withCall { playing [] with fresh := false, nUp := 159 }

/-- A unit for tag 300: kind nibble, sequence, rate and request bits, direction, amount, payload. -/
def unit (kind seq bits dir amount : Byte) (payload : List Byte) : List Byte :=
  [kind * 16 + 1, 44, seq, bits, dir, amount, byte payload.length] ++ payload

/-- A NO_DATA unit for tag 300 passes its checks. -/
def goodUnit : List Byte := unit 3 40 0 0 0 []

/-! ## WellFormed refuses -/

/-- A count below 2 and above 250, and a good count as a bad one. -/
theorem wellFormed_refuses_bytes :
    WellFormed (.countByte 1) = false ∧ WellFormed (.countByte 251) = false ∧
    WellFormed (.badCountByte 250 [true]) = false := by decide

/-- No bit after the data bits, and three. -/
theorem wellFormed_refuses_tails :
    WellFormed (.bodyByte 7 []) = false ∧ WellFormed (.controlMessageReceived 7 [true, true, true]) = false ∧
    WellFormed (.badCountByte 251 []) = false := by decide

theorem wellFormed_takes_bytes :
    WellFormed (.countByte 2) = true ∧ WellFormed (.countByte 250) = true ∧ WellFormed (.badCountByte 251 [true]) = true ∧
    WellFormed (.badCountByte 2 [false, true]) = true ∧ WellFormed (.badCountByte 2 [false]) = true := by decide

/-- 11.1: 0xC5 sends its bits 1, 0, 1, 0, 0, 0, 1, 1 in that order; it has four ones, so an even parity bit is 0 and an odd
one 1; a parity bit the other way is a parity error, and a low stop bit a framing error. -/
theorem test_byte_frame :
    byteFrame .none 0xC5 = [false, true, false, true, false, false, false, true, true, true] ∧
    byteFrame .even 0xC5 = [false, true, false, true, false, false, false, true, true, false, true] ∧
    byteFrame .odd 0xC5 = [false, true, false, true, false, false, false, true, true, true, true] ∧
    readFrame .odd (byteFrame .even 0xC5) = some (0xC5, .parity) ∧
    readFrame .none (frameBits 0xC5 [false]) = some (0xC5, .framing) := by decide

/-- No word spells a command: the table gives no row any bits. -/
theorem test_no_word_spells : decodeTableWord 8 0 = none := rfl

/-! ## The manual's worked cases -/

/-- 3.7: expansion at both laws. -/
theorem test_expand :
    [0xD5#8, 0x55#8, 0x2A#8, 0x2B#8].map expandALaw = [8, -8, -32256, -31232] ∧ [0xFF#8, 0x7F#8, 0x80#8].map expandMuLaw = [0, 0, 32124] := by
  decide +kernel

/-- 3.7: compression at both laws. -/
theorem test_compress :
    [32767, 0, -1, -32768].map compressALaw = [0xAA#8, 0xD5#8, 0x55#8, 0x2A#8] ∧
    [32767, 0, -1, -32768].map compressMuLaw = [0x80#8, 0xFF#8, 0x7F#8, 0x00#8] := by decide +kernel

/-- 3.7: −31232 at gain index +3 comes to −44103 and is clamped. -/
theorem test_gain : gainUnclamped 3 (-31232) = -44103 ∧ gainSample 3 (-31232) = -32768 ∧ gainClamps 3 (-31232) = true := by
  decide +kernel

/-- 4.3: the scale of a peak of 1000 at the three rates. -/
theorem test_scale : [4, 3, 2].map (fun b => selectScale b 1000) = [7, 8, 9] := by decide +kernel

/-- 4.3, 4.6: three samples at L24 and scale 8 from y_prev = 200, and their decoding. -/
theorem test_code_and_decode :
    quantiseAll 3 8 200 [500, -300, -1200] = ([4, 2, 2], -1111) ∧ decodeCodes 3 8 200 [4, 2, 2] = [431, -391, -1111] := by
  decide +kernel

/-- 4.8: the first noise samples of channel 0 at level 10. -/
theorem test_noise :
    noiseSamples (noiseAmplitude (some 10)) 6 (noiseSeed 0) = [-468, -570, 51, 361, 516, -414] := by decide +kernel

/-- 4.9: a burst of lost frames fades by the factors of R71. -/
theorem test_conceal : [1, 2, 3].map (fun j => concealedBlock j [1000, -20000, 400]) =
    [[750, -15000, 300], [563, -11250, 225], [422, -8437, 169]] := by decide +kernel

/-- 1.9: OPEN on channel 17 in the period C = 100, with bucket 2 the smallest, gives φdn = 27 and n_up = 74. -/
theorem test_open :
    let buckets : Vector Nat 16 := ((Vector.replicate 16 4).set 2 2).set 11 2
    openPhase buckets 17 = 27 ∧ 160 - firstBlock 27 100 = 74 := by decide +kernel

/-- 5.8: an arrival at C = 90 for the boundary at C = 30 has margin 100, and one at C = 140 two ahead has 370. -/
theorem test_margin :
    ({ call with phiDn := 30 }).margin 90 0 = 100 ∧ ({ call with phiDn := 30 }).margin 140 2 = 370 := by decide +kernel

/-- 6.8: a minimum margin of 15 under the band 60..300 asks for 80 earlier with token 1. -/
theorem test_request : requestFor 60 300 15 = some (.sendEarlier, 80) ∧ nextToken 0 = 1 ∧ nextToken 3 = 1 := by
  decide +kernel

/-- 6.8: L24 settles to L16 against the set L32, L16; ADVANCE 20 moves φup from 45 to 25 and shortens the block. -/
theorem test_uplink_boundary :
    let s := raised [.uplink 5] (withCall { call with
      phiUp := 45, upRate := .l32, rateReq := some .l24, adjust := some ⟨.advance, 20, 2⟩ })
    let s1 := { s with profiles := s.profiles.set 1 { Profile.default with rateSet := ⟨true, false, true⟩ } }
    ctx (after (.uplinkBoundary 5) s1) (fun c => c.upRate = .l16 && c.phiUp = 25 && c.blockLen = 140 && c.upEcho = 2) =
      true := by decide +kernel

/-- R107: the fault frame of the boundary that applies an adjust carries its token, 2, as its echo; under SILENT no frame is
placed, and the frame that waits in the slot keeps the echo 1 it was placed with (R143). -/
theorem test_fault_frame_echo :
    let c := { faulty .late ⟨true, .latched, .latched, 0, 0⟩ with adjust := some ⟨.advance, 20, 2⟩, upEcho := 1 }
    let s := raised [.uplink 5] (withCall c)
    let waits := { s with
      link := { s.link with slots := s.link.slots.set 5 (some ⟨s.fillFrame c .noData none [], false⟩) }
      profiles := s.profiles.set 1 { Profile.default with outUp := .silent } }
    ∀ x ∈ [(s, 2), (waits, 1)],
      let t := after (.uplinkBoundary 5) x.1
      (t.link.slots[(5 : Chan)]).any (fun sl => sl.frame.echo = x.2) = true ∧
      ctx t (fun d => d.upEcho = 2 && d.adjust = none && d.blockLen = 140) = true := by decide +kernel

/-- 9.9: at the second expiry with the condition present and a captured limit of 2 the kind is LATCHED. -/
theorem test_retry_escalates :
    let s := { withCall (faulty .starvation ⟨true, .retrying, .retry 2, 1, 0⟩) with rest := [.retryExpiry 5] }
    ctx (after (.retryTimerExpiry 5) s) (fun c => (c.fault .starvation).state = .latched && c.state = .faulted) = true := by
  decide +kernel

/-- 2.10: a pulse 60 µs into a LOST period re-aims the timer to 185 µs after that period began. -/
theorem test_reaim :
    (after (.fsyncPulse 60000 quiet) { ready with hw := { ready.hw with sync := .lost } }).hw.expected = 185000 := by
  decide +kernel

/-- 2.10: the fourth missing start makes LOCKED HOLDOVER. -/
theorem test_missing : (after (.missingPeriodStart quiet) { ready with hw := { ready.hw with missingRun := 3 } }).hw.sync =
    .holdover := by decide +kernel

/-- 8.8: at CARRIER_LOST an open channel with LINK in class RETRY becomes FAULTED. -/
theorem test_carrier_lost : ctx (after .carrierLost (withCall call)) (fun c => c.state = .faulted) = true := by
  decide +kernel

/-- 8.8: a NO_DATA frame takes 1520 ns; 1.9: a frame of 62 payload bytes takes 6480 ns. -/
theorem test_frame_time :
    (Frame.mk .noData 0 0 none none none 0 []).timeNs = 1520 ∧
    (Frame.mk .speech 0 0 (some .l24) none none 0 (List.replicate 62 0)).timeNs = 6480 := by decide +kernel

/-- R180: the IDENTIFY answer's identity, 0x4D 0x57, and the part number 4256. -/
theorem test_identify :
    (after .identify (withOrder (order 0x01 []) ready)).ctl.answer = some ⟨0x81, 7, [0, 0x4D, 0x57, 0x10, 0xA0, 1]⟩ := by
  decide +kernel

/-! ## States that meet the hypotheses of the statements -/

/-! ### A state that meets the invariants -/

/-- A playing call at its uplink boundary at C = 0, its ENCODE job just made. -/
def talker : Context := { playing [entry 40 .sid, entry 42 .speech] with fresh := false, nUp := 0, phiUp := 0 }

/-- A playing call with a SID queued, a frame being transmitted, an ENCODE job running, and a command waiting. -/
def talking : State :=
  let s := withCall talker
  let sl : Slot := ⟨⟨.noData, 300, 0, none, none, none, 0, []⟩, false⟩
  let slots := s.link.slots.set 5 (some sl)
  { s with
    link := { s.link with slots := slots, txQueue := [5], sending := some 1520 }
    eng := { s.eng with engines := s.eng.engines.set 0 (some (running .encode (.samples [8]) false)) }
    pending := [.gapTimeout] }

/-- Channel 5 holds the one context of `talking`. -/
theorem talking_chan (ch : Chan) (c : Context) :
    talking.chan[ch] = some c ↔ ch = 5 ∧ c = talker := by
  have h : talking.chan = (Vector.replicate 256 none).set 5 (some talker) := rfl
  rw [h]
  simp only [Fin.getElem_fin, Vector.getElem_set, Vector.getElem_replicate]
  have e : ((5 : Nat) = ch.val) ↔ ch = 5 := ⟨fun x => Fin.ext x.symm, fun x => by rw [x]; rfl⟩
  by_cases hc : ch = 5
  · rw [if_pos (e.mpr hc)]; simp [hc, eq_comm]
  · rw [if_neg (fun x => hc (e.mp x))]; simp [hc]

theorem witness_StepKeepsProfiles : ProfilesInv talking ∧ ∃ t, step talking = .next t := by
  refine ⟨⟨by decide +kernel, ?_⟩, _, rfl⟩
  have h : talking.profiles = Vector.replicate 16 .default := rfl
  intro n
  rw [h]
  simp only [Fin.getElem_fin, Vector.getElem_replicate]
  unfold Profile.InRange
  decide +kernel

theorem witness_StepKeepsMaps : MapsInv talking ∧ ∃ t, step talking = .next t := by
  refine ⟨⟨fun t ch => ?_, fun n ch => ?_⟩, _, rfl⟩
  · have h : talking.tagMap[t] = if 300 = t.val then some 5 else none := by
      have h' : talking.tagMap = (Vector.replicate 4096 none).set 300 (some 5) := rfl
      rw [h', Fin.getElem_fin, Vector.getElem_set, Vector.getElem_replicate]
    rw [h]
    constructor
    · split
      · rename_i x; intro y; exact ⟨_, (talking_chan _ _).mpr ⟨(Option.some.inj y).symm, rfl⟩, Fin.ext x⟩
      · intro y; cases y
    · rintro ⟨c, hc, rfl⟩; obtain ⟨rfl, rfl⟩ := (talking_chan ch c).mp hc; rfl
  · have h : talking.hw.bindings[n] = if 34 = n.val then some 5 else none := by
      have h' : talking.hw.bindings = (Vector.replicate 256 none).set 34 (some 5) := rfl
      rw [h', Fin.getElem_fin, Vector.getElem_set, Vector.getElem_replicate]
    rw [h]
    constructor
    · split
      · rename_i x; intro y; exact ⟨_, (talking_chan _ _).mpr ⟨(Option.some.inj y).symm, rfl⟩, Fin.ext x⟩
      · intro y; cases y
    · rintro ⟨c, hc, rfl⟩; obtain ⟨rfl, rfl⟩ := (talking_chan ch c).mp hc; rfl

theorem witness_StepKeepsEgress : EgressInv talking ∧ ∃ t, step talking = .next t := by
  refine ⟨⟨by decide +kernel, by decide +kernel, ?_, by decide +kernel⟩, _, rfl⟩
  intro ns h
  exact ⟨by decide +kernel, 5, [], _, rfl, rfl, (Option.some.inj h).symm⟩

theorem witness_StepKeepsControlLine : ControlInv talking ∧ ∃ t, step talking = .next t := by
  have holds : ∀ g ch, talking.ctl.proc = .holding g ch → talking.ctl.answer = none := fun g ch h => by cases h
  refine ⟨⟨trivial, ?_, ?_, ?_, ?_, ?_, ?_, ?_, ?_, ?_, ?_, holds, ?_⟩, _, rfl⟩
  all_goals decide +kernel

theorem witness_StepKeepsFaultRecords : FaultsInv talking ∧ ∃ t, step talking = .next t := by
  refine ⟨fun ch c h => ?_, _, rfl⟩
  obtain ⟨-, rfl⟩ := (talking_chan ch c).mp h
  refine ⟨fun k => ?_, by decide +kernel, by decide +kernel⟩
  cases k <;> exact ⟨rfl, rfl⟩

/-- The one running job of `talking`. -/
theorem talking_runs (e : EngineNo) (r : Running) (h : talking.eng.engines[e] = some r) :
    r = running .encode (.samples [8]) false := by
  have h' : talking.eng.engines = (Vector.replicate 4 none).set 0 (some (running .encode (.samples [8]) false)) := rfl
  rw [h'] at h
  simp only [Fin.getElem_fin, Vector.getElem_set, Vector.getElem_replicate] at h
  split at h <;> cases h
  rfl

theorem talking_engines : EnginesInv talking := by
  refine ⟨by decide +kernel, fun j h => ?_, by decide +kernel, fun e r h => ?_, by decide +kernel, by decide +kernel⟩
  · rcases h with h | ⟨e, r, h, rfl⟩
    · exact (List.not_mem_nil h).elim
    · obtain rfl := talking_runs e r h
      decide +kernel
  · obtain rfl := talking_runs e r h
    decide +kernel

theorem witness_StepKeepsEngines : EnginesInv talking ∧ ∃ t, step talking = .next t := ⟨talking_engines, _, rfl⟩

theorem talking_uplink : UplinkPhaseInv talking := by
  refine ⟨by decide +kernel, fun ch => ⟨fun h => (List.not_mem_nil h).elim, ?_⟩, .nil, fun ch c h => ?_⟩
  · rintro ⟨c, h, hn⟩
    obtain ⟨-, rfl⟩ := (talking_chan ch c).mp h
    exact absurd hn (by decide +kernel)
  · obtain ⟨-, rfl⟩ := (talking_chan ch c).mp h
    decide +kernel

theorem witness_StepKeepsUplinkPhase : UplinkPhaseInv talking ∧ ∃ t, step talking = .next t := ⟨talking_uplink, _, rfl⟩

/-- One ENCODE job runs, made at the boundary of this period. -/
theorem witness_StepKeepsOneEncode : EncodeInv talking ∧ ∃ t, step talking = .next t := by
  refine ⟨⟨talking_uplink, talking_engines, fun j h => (List.not_mem_nil h).elim, fun e r h => ?_, by decide +kernel,
    fun ch j h hj => ?_⟩, _, rfl⟩
  · obtain rfl := talking_runs e r h
    decide +kernel
  · rcases h with h | ⟨e, r, h, rfl⟩
    · exact (List.not_mem_nil h).elim
    · obtain rfl := talking_runs e r h
      have hc : ch = 5 := by simpa [Job.isEncodeOf, running, eq_comm] using hj
      exact ⟨talker, (talking_chan ch talker).mpr ⟨hc, rfl⟩, by decide +kernel⟩

theorem witness_StepKeepsModes : ModeInv talking ∧ ∃ t, step talking = .next t := by
  refine ⟨⟨by decide +kernel, by decide +kernel, ?_, ?_⟩, _, rfl⟩
  · intro g ch h; cases h
  · intro ch c h hc
    obtain ⟨-, rfl⟩ := (talking_chan ch c).mp h
    cases hc

theorem witness_StepKeepsBuckets : BucketsInv talking ∧ ∃ t, step talking = .next t := by
  refine ⟨?_, _, rfl⟩
  unfold BucketsInv
  decide +kernel

theorem witness_StepKeepsPlayout : PlayoutInv talking ∧ ∃ t, step talking = .next t := by
  refine ⟨fun ch c h => ?_, _, rfl⟩
  obtain ⟨-, rfl⟩ := (talking_chan ch c).mp h
  refine ⟨by decide +kernel, ?_, by decide +kernel, by decide +kernel⟩
  intro x hx
  cases hx
  decide +kernel

theorem witness_StepKeepsSamples : SamplesInv talking ∧ ∃ t, step talking = .next t := by
  refine ⟨⟨fun ch c h => ?_, fun j h => (List.not_mem_nil h).elim, fun e r h => ?_⟩, _, rfl⟩
  · obtain ⟨-, rfl⟩ := (talking_chan ch c).mp h
    have ready : ∀ b, talker.outcome = .decode (.ready b) → b.length = 160 := fun b hb => by cases hb
    have level : ∀ l, talker.noiseLevel = some l → l ≤ 63 := fun l hl => by cases hl
    unfold Context.SamplesSound IsSample
    refine ⟨?_, ?_, ?_, ?_, ?_, ?_, ?_, ?_, ?_, ready, level, ?_⟩
    all_goals decide +kernel
  · obtain rfl := talking_runs e r h
    unfold IsSample
    decide +kernel

/-- A reset taken while a frame is being sent, and one taken while none is. -/
theorem witness_HardwareResetValues : talking.link.sending.isSome ∧ ready.link.sending = none ∧
    State.reset = State.resetWith false false false := ⟨rfl, rfl, rfl⟩

/-! ### The other statements -/

/-- A queue with a command in front, and an empty one. -/
theorem witness_StepTakesFrontCommand :
    ({ ready with pending := [.identify, .close] }).pending = [.identify, .close] ∧ ready.pending = [] := ⟨rfl, rfl⟩

/-- A command that is no rest of an event, met with a rest to do; nothing raised or waiting; an engine whose job ends after
the period; a job whose deadline is past its end; an event of each kind that the next period start brings, noted and not, and one that it
does not bring; and the pulse before and the pulse after the good window, in LOCKED and in LOST. -/
theorem witness_RowsOutsideTheirEvent :
    ((∀ a b c, Instr.identify ≠ .hardwareReset a b c) ∧ (∀ ch, Instr.identify ≠ .supervisionWindowEnd ch) ∧
      (∀ ch, Instr.identify ≠ .retryTimerExpiry ch) ∧ ∀ ch, Instr.identify ≠ .observationWindowEnd ch) ∧
    ({ withCall call with rest := [.supervisionWindow 5, .retryExpiry 5] }).rest ≠ [] ∧
    (ready.rest = [] ∧ ready.due = [] ∧ ready.eng.engines[(0 : EngineNo)] = none ∧ ready.eng.queue = [] ∧
      (let r := { running .encode (.samples []) false with done := 125001 }
       ((withJobs busy [] ready).eng.engines.set 0 (some r))[0] = some r ∧ ready.hw.periodStart + 125000 < r.done) ∧
      ∀ j ∈ (withJobs busy [job .encode 125001] ready).eng.queue, ready.hw.periodStart + 125000 < j.deadline) ∧
    (∀ x ∈ [(Due.uplink 5, (159 : Phase)), (.downlink 5, 4), (.blockStart 5, 36)],
      let noted := { coming with hw := { coming.hw with c := x.2 }, ahead := [x.1] }
      noted.comesNext x.1 = true ∧ (noted.atPeriodEnd 125000).ahead = [x.1] ∧ (noted.atPeriodEnd 125000).hw.c = x.2 ∧
      ctx (noted.atPeriodEnd 125000) (fun c => !c.fresh && c.nUp + 1 = c.blockLen && c.phiDn = 5) = true) ∧
    coming.due = [] ∧ coming.ahead = [] ∧ coming.rest = [] ∧ coming.comesNext (.downlink 5) = false ∧
    ready.hw.sync = .locked ∧ ¬ PulseIsGood ready 109999 ∧ ¬ PulseIsGood ready 140001 ∧
    State.reset.rest = [] ∧ State.reset.hw.sync = .lost ∧ ¬ PulseIsGood State.reset 60000 := by
  refine ⟨⟨nofun, nofun, nofun, nofun⟩, ?_⟩
  unfold PulseIsGood
  decide +kernel

/-- 2.6, 9.2: DOWNLINK_BOUNDARY commanded before the period start that ends a window counts this period's clamp in the new
window; commanded after it, in the ending one, judged with it and set to 0. -/
theorem test_clamp_and_window_end :
    let c := { playing [] with fresh := false, gainUp := 12, window := some 49, satUpWin := 7 }
    let s := { withCall c with hw := { (withCall c).hw with c := 4 } }
    let loud : HighwayCodes := Vector.replicate 256 0xAA#8
    let first := after (.missingPeriodStart loud) (after (.downlinkBoundary 5) s)
    let last := after (.supervisionWindowEnd 5) (after (.downlinkBoundary 5) (after (.missingPeriodStart loud) s))
    ctx first (fun d => d.satUpWin = 1 && d.window = some 0 && d.stats.satUp = 1) = true ∧
    ctx last (fun d => d.satUpWin = 0 && d.window = some 0 && d.stats.satUp = 1) = true := by decide +kernel

/-- 9.4: the sync becomes LOCKED at the period start of an expiry of HIGHWAY. The expiry first restarts; the change first
clears the kind. -/
theorem test_expiry_and_return :
    let c := { faulty .highway ⟨true, .retrying, .retry 0, 0, 1⟩ with fresh := false }
    let s0 := withCall c
    let s := { s0 with hw := { s0.hw with sync := .lost, goodRun := 15, c := 4 } }
    let pulse : Instr := .fsyncPulse 125000 quiet
    let first := after pulse (after (.downlinkBoundary 5) s)
    let last := after (.retryTimerExpiry 5) (after (.downlinkBoundary 5) (after pulse s))
    (ctx first fun d => d.fault .highway = ⟨false, .retrying, .retry 0, 1, 10⟩ && d.state = .faulted) = true ∧
    (ctx last fun d => d.fault .highway = ⟨false, .none, .none, 0, 0⟩ && d.state = .active) = true := by decide +kernel

/-- The earliest and the latest good pulse, and the missing start. -/
theorem witness_PeriodStartMovesClockAndSync :
    StartsPeriod (.fsyncPulse 110000 quiet) true 110000 quiet ready ∧
    StartsPeriod (.fsyncPulse 140000 quiet) true 140000 quiet ready ∧
    StartsPeriod (.missingPeriodStart quiet) false 125000 quiet ready := by
  refine ⟨.inl ⟨rfl, rfl, ?_⟩, .inl ⟨rfl, rfl, ?_⟩, .inr ⟨rfl, rfl, ?_⟩⟩ <;> (try unfold PulseIsGood) <;> decide +kernel

/-- A call not opened in the period that ends, one that was, and a FREE channel, at the end of a period. -/
theorem witness_PeriodStartWritesSamples :
    StartsPeriod (.missingPeriodStart quiet) false 125000 quiet (withCall (playing [])) ∧
    ((withCall { playing [] with fresh := false }).atPeriodStart 125000 quiet).chan[(5 : Chan)].any (fun c => !c.fresh) = true ∧
    ((withCall call).atPeriodStart 125000 quiet).chan[(5 : Chan)].any (fun c => c.fresh) = true ∧
    ((withCall call).atPeriodStart 125000 quiet).chan[(6 : Chan)] = none := by
  refine ⟨.inr ⟨rfl, rfl, ?_⟩, ?_⟩ <;> decide +kernel

/-- At the end of the period the call is the only channel that holds its timeslot, and timeslot 35 is no channel's. -/
theorem witness_PeriodStartSendsCodes :
    StartsPeriod (.missingPeriodStart quiet) false 125000 quiet (withCall call) ∧
    ((withCall call).atPeriodStart 125000 quiet).chan[(5 : Chan)] = some call ∧
    ((withCall call).atPeriodStart 125000 quiet).openChannels = [5] ∧ slotNo call.highway call.timeslot = 34 := by
  refine ⟨.inr ⟨rfl, rfl, ?_⟩, ?_⟩ <;> decide +kernel

/-- The missing start that enters LOST and the good start that leaves it, with channels that are neither FREE nor CLOSING, and
one that is CLOSING. -/
theorem witness_SyncChangeFindsHighway :
    (∀ c ∈ [call, playing [], { playing [] with state := .closing }],
      let s0 := withCall c
      let s := { s0 with hw := { s0.hw with sync := .holdover, missingRun := 79 } }
      (s.atPeriodStart 125000 quiet).hw.sync ≠ .lost ∧ (after (.missingPeriodStart quiet) s).hw.sync = .lost ∧
      (s.atPeriodStart 125000 quiet).chan[(5 : Chan)] = some c) ∧
    (let s0 := withCall call
     let s := { s0 with hw := { s0.hw with sync := .lost, goodRun := 15 } }
     (s.atPeriodStart 140000 quiet).hw.sync = .lost ∧ (after (.fsyncPulse 140000 quiet) s).hw.sync = .locked ∧
     s.hw.expected ≤ 140000 + 15000 ∧ 140000 ≤ s.hw.expected + 15000) := by decide +kernel

/-- A boundary with an idle engine and no queue, and one with every engine busy; with no adjust and with each. -/
theorem witness_UplinkBoundarySubmitsEncode :
    let s := raised [.uplink 5] (withCall call)
    let t := withJobs busy [job .encode 4000000] (raised [.uplink 5] (withCall
      { playing [] with adjust := some ⟨.retard, 40, 1⟩ }))
    s.rest = [] ∧ .uplink 5 ∈ s.due ∧ s.chan[(5 : Chan)] = some call ∧ call.state = .aligning ∧ s.eng.queue = [] ∧
    s.eng.idleEngine = some 0 ∧ (playing []).state = .active ∧ .uplink 5 ∈ t.due ∧ t.rest = [] ∧
    ctx t (fun c => c.state = .active && c.adjust.isSome) = true ∧ t.eng.idleEngine = none := by decide +kernel

/-- A FAULTED call at its uplink boundary, with each OUT_UP, the fault frame count at 0 and at 7, and an adjust pending and
none. -/
theorem witness_UplinkBoundaryInFaulted :
    ∀ out ∈ [OutUp.noData, .sid, .silent], ∀ n ∈ [0, 7], ∀ a ∈ [none, some (UplinkAdjust.mk .retard 40 1)],
      let c := { faulty .late ⟨true, .latched, .latched, 0, 0⟩ with adjust := a }
      let s0 := raised [.uplink 5] (withCall c)
      let s := { s0 with
        profiles := s0.profiles.set 1 { Profile.default with outUp := out }, faultFrames := s0.faultFrames.set 5 n }
      s.rest = [] ∧ .uplink 5 ∈ s.due ∧ s.chan[(5 : Chan)] = some c ∧ c.state = .faulted ∧ (s.profileOf c).outUp = out ∧
      s.faultFrames[(5 : Chan)] = n := by decide +kernel

/-- The same with a rate request pending and a timing request at DRIFT_LIMIT, and with the slot empty and no frame waiting,
the slot's frame being transmitted, and another channel's. -/
theorem witness_UplinkBoundaryInFaulted_frame :
    let c := { faulty .late ⟨true, .latched, .latched, 0, 0⟩ with
      rateReq := some .l32, request := some ⟨.sendLater, 1, 3⟩, drift := 24 }
    let s := raised [.uplink 5] (withCall c)
    let link := fun (d : Chan) => { s.link with
      slots := s.link.slots.set d (some ⟨s.fillFrame c .noData none [], false⟩), txQueue := [d], sending := some 1520 }
    (∀ lp ∈ [s.link, link 5, link 6],
      let u := { s with link := lp }
      u.rest = [] ∧ .uplink 5 ∈ u.due ∧ u.chan[(5 : Chan)] = some c) ∧ c.state = .faulted ∧
    (s.profileOf c).outUp ≠ .silent ∧ c.request.isSome ∧ (s.profileOf c).driftLimit ≤ min 100 (c.drift + 1) ∧
    s.link.sending = none ∧ s.link.txQueue = [] ∧ s.link.slots[(5 : Chan)] = none ∧
    (link 5).txQueue.head? = some 5 ∧ (link 6).txQueue.head? ≠ some 5 := by decide +kernel

/-- A CLOSING call at its uplink boundary, its CLOSE held. -/
theorem witness_UplinkBoundaryCompletesClose :
    let c := { playing [] with state := .closing }
    let s0 := raised [.uplink 5] (withCall c)
    let s := { s0 with mode := .drain, ctl := { s0.ctl with proc := .holding 7 5 } }
    s.rest = [] ∧ .uplink 5 ∈ s.due ∧ s.chan[(5 : Chan)] = some c ∧ c.state = .closing ∧ s.ctl.proc = .holding 7 5 ∧
    s.mode = .drain ∧ ∀ d : Chan, d ≠ 5 → s.chan[d] = none := by decide +kernel

/-- A full slot at the head of the queue in transmission, a channel placed behind another's transmission, an empty queue, and
a request that has reached DRIFT_LIMIT. -/
theorem witness_PlacementFillsSlotAndHeader :
    let f : Frame := ⟨.noData, 300, 0, none, none, none, 0, []⟩
    let link := fun (d : Chan) => { ready.link with
      slots := ready.link.slots.set d (some ⟨f, false⟩), txQueue := [d], sending := some 1520 }
    let s := { withCall call with link := link 5 }
    let t := { withCall call with link := link 6 }
    let c := { playing [] with request := some ⟨.sendLater, 1, 3⟩, drift := 24 }
    s.chan[(5 : Chan)] = some call ∧ s.link.sending.isSome ∧ (s.link.slots[(5 : Chan)]).isSome ∧
    s.link.txQueue.head? = some 5 ∧ t.chan[(5 : Chan)] = some call ∧ t.link.sending.isSome ∧
    t.link.txQueue.head? ≠ some 5 ∧ (withCall c).chan[(5 : Chan)] = some c ∧ c.request.isSome ∧
    ((withCall c).profileOf c).driftLimit ≤ min 100 (c.drift + 1) ∧ (withCall c).link.sending = none ∧
    (withCall c).link.txQueue = [] ∧ (withCall c).link.slots[(5 : Chan)] = none := by decide +kernel

/-- The states of the playout queue at a downlink boundary: below and at the start depth, empty, a head not expected, and
each kind of head but SPEECH expected. -/
theorem witness_DownlinkBoundaryPlaysHead :
    let due := fun (c : Context) => State.raiseStarvation 5 (withCall c)
    let waits := fun (n : Nat) => { call with expected := some 40, queue := (List.range n).map fun i => entry (40 + i) .noData }
    (∀ c ∈ [waits 1, waits 2, playing [], playing [entry 41 .speech], playing [entry 40 .sid],
        playing [entry 40 .noData], playing [entry 40 .endCall]],
      let s := raised [.downlink 5] (withCall c)
      s.rest = [] ∧ .downlink 5 ∈ s.due ∧ s.chan[(5 : Chan)] = some c ∧ c.state ≠ .closing) ∧
    ctx (due (waits 1)) (fun d => d.playout = .waiting && d.queue.length < d.startDepth) = true ∧
    ctx (due (waits 2)) (fun d => d.playout = .waiting && d.queue.length = d.startDepth && d.state = .aligning) = true ∧
    ctx (due (playing [entry 41 .speech])) (fun d => d.playout = .playing && d.expected = some 40) = true ∧
    ∀ k ∈ [FrameKind.sid, .noData, .endCall],
      ctx (due (playing [entry 40 k])) (fun d => d.queue.head? = some (entry 40 k) && d.expected = some 40) = true := by
  decide +kernel

/-- A SPEECH head taken in ACTIVE and in FAULTED, with no job held, with one held, and with every engine busy. -/
theorem witness_DownlinkBoundaryServesSpeech :
    let e := entry 40 .speech
    let c := playing [e]
    let s := raised [.downlink 5] (withCall c)
    let held := withJobs (ready.eng.engines.set 0 (some (running .decode (.payload []) false))) [] s
    let f := { faulty .late ⟨true, .latched, .latched, 0, 0⟩ with queue := [e] }
    let u := fun (x : State) => State.raiseStarvation 5 { x with due := [] }
    s.rest = [] ∧ .downlink 5 ∈ s.due ∧ s.chan[(5 : Chan)] = some c ∧ c.state ≠ .closing ∧ s.eng.queue = [] ∧
    (s.due.filter fun x => x ≠ .downlink 5) = [] ∧
    ctx (u s) (fun d => d.playout = .playing && d.queue = [e] && d.expected = some e.seq && d.state = .active) = true ∧
    e.kind = .speech ∧ e.rate = some .l24 ∧ (u s).eng.holdsJob 5 .decode = false ∧ (u s).eng.idleEngine = some 0 ∧
    (u held).eng.holdsJob 5 .decode = true ∧ (withJobs busy [] s).eng.idleEngine = none ∧
    ctx (u (raised [.downlink 5] (withCall f))) (fun d => d.state = .faulted && d.queue = [e]) = true := by decide +kernel

/-- A CLOSING call, and calls before the first boundary of a window, at its 50th and with a timer about to expire. -/
theorem witness_DownlinkBoundarySupervises :
    ∀ c ∈ [{ call with state := .closing }, call, { playing [] with window := some 49, starvation := 24 },
        { faulty .late ⟨true, .retrying, .retry 0, 0, 1⟩ with window := some 48 }],
      let s := raised [.downlink 5] (withCall c)
      s.rest = [] ∧ .downlink 5 ∈ s.due ∧ s.chan[(5 : Chan)] = some c ∧ s.eng.queue = [] := by decide +kernel

/-- A window end left to do, with OVERLOAD at and below its limit. -/
theorem witness_SupervisionWindowEndJudges :
    ∀ c ∈ [{ playing [] with satUpWin := 500, satDnWin := 300, missWin := 5 }, { playing [] with satUpWin := 799 }],
      let s := { withCall c with rest := [.supervisionWindow 5] }
      s.rest = .supervisionWindow 5 :: [] ∧ s.chan[(5 : Chan)] = some c ∧ c.state ≠ .closing := by decide +kernel

/-- Expiries with the condition absent, present without a limit, below the limit and at it. -/
theorem witness_RetryTimerExpiryActs :
    ∀ r ∈ [FaultRecord.mk false .retrying (.retry 3) 1 0, ⟨true, .retrying, .retry 0, 15, 0⟩,
        ⟨true, .retrying, .retry 3, 1, 0⟩, ⟨true, .retrying, .retry 3, 2, 0⟩],
      let c := faulty .overload r
      let s := { withCall c with rest := [.retryExpiry 5] }
      s.rest = .retryExpiry 5 :: [] ∧ s.chan[(5 : Chan)] = some c ∧ c.state = .faulted ∧
      (c.fault .overload).state = .retrying ∧ (c.fault .overload).remaining = 0 := by decide +kernel

/-- A kind in NONE under each class, a kind already recognised, and a FAULTED channel. -/
theorem witness_FindingRecognisesByClass :
    (∀ cls ∈ [FaultClass.off, .report, .retry, .latched],
      let s0 := withCall (playing [])
      let s := { s0 with profiles := s0.profiles.set 1 { Profile.default with cls := Vector.replicate 7 cls } }
      s.chan[(5 : Chan)] = some (playing []) ∧ (playing []).state ≠ .closing ∧
      ((playing []).fault .late).state = .none ∧ (s.profileOf (playing [])).cls[FaultKind.late.index] = cls) ∧
    let c := faulty .late ⟨false, .latched, .latched, 0, 0⟩
    (withCall c).chan[(5 : Chan)] = some c ∧ c.state = .faulted ∧ (c.fault .late).state ≠ .none := by decide +kernel

/-- An output block start in each state and with each outcome but a pending DECODE. -/
theorem witness_OutputBlockStartChooses :
    ∀ c ∈ [call, { call with state := .closing }, faulty .late ⟨true, .latched, .latched, 0, 0⟩,
        { playing [] with outcome := .decode (.ready (List.replicate 160 8)) },
        { playing [] with outcome := .decode .missed, concealIndex := 5 }, { playing [] with outcome := .sid },
        { playing [] with outcome := .endFrame }, { playing [] with outcome := .noData, output := .noise },
        { playing [] with outcome := .missing, output := .decoded }, { playing [] with output := .muted },
        { playing [] with outcome := .decode .withdrawn, output := .concealed, concealIndex := 4 }],
      let s := raised [.blockStart 5] (withCall c)
      s.rest = [] ∧ .blockStart 5 ∈ s.due ∧ s.chan[(5 : Chan)] = some c ∧ c.outcome ≠ .decode .pending := by
  decide +kernel

/-- A DECODE job still waiting at its block start, in each state of the channel and with each OUT_DN. -/
theorem witness_OutputBlockStartMissesPendingDecode :
    ∀ st ∈ [CallState.aligning, .active, .faulted, .closing], ∀ out ∈ [OutDn.idle, .noise, .hold],
      let c := { playing [] with state := st, outcome := .decode .pending }
      let s0 := withJobs busy [job .decode 4000000] (raised [.blockStart 5] (withCall c))
      let s := { s0 with profiles := s0.profiles.set 1 { Profile.default with outDn := out } }
      s.rest = [] ∧ .blockStart 5 ∈ s.due ∧ s.chan[(5 : Chan)] = some c ∧ c.outcome = .decode .pending ∧
      (s.profileOf c).outDn = out := by decide +kernel

/-- The state with engine 0 at the completion of a job of the call, the other engines busy. -/
def completing (c : Context) (r : Running) (queue : List Job) : State :=
  let late : Option Running := some { r with done := 4000000 }
  withJobs #v[some r, late, late, late] queue (withCall c)

/-- An ENCODE job of a block above VAD_LEVEL, and of silence, completes unmarked, with another job waiting. -/
theorem witness_JobCompletionKeepsEncode :
    ∀ x ∈ [(257 : Int), 0],
      let r := running .encode (.samples (List.replicate 161 x)) false
      let s := completing (playing []) r [job .decode 4000000]
      let u := s.advanceTo r.done
      s.rest = [] ∧ s.eng.engines[(0 : EngineNo)] = some r ∧ r.done ≤ s.hw.periodStart + 125000 ∧
      u.eng.engines[(0 : EngineNo)] = some r ∧ r.marked = false ∧
      r.job = ⟨5, .encode, .l24, 4000000, .samples (List.replicate 161 x)⟩ ∧ u.chan[(5 : Chan)] = some (playing []) ∧
      (playing []).state ≠ .faulted ∧ u.eng.queue = [job .decode 4000000] := by decide +kernel

/-- A marked job, a DECODE that is kept and one whose block start is past. -/
theorem witness_JobCompletionKeepsDecodeOrDiscards :
    let c := { playing [] with outcome := .decode .pending }
    ∀ m ∈ [true, false], ∀ d ∈ [c, playing []],
      let r := running .decode (.payload (List.replicate 62 0)) m
      let s := completing d r []
      let u := s.advanceTo r.done
      s.rest = [] ∧ s.eng.engines[(0 : EngineNo)] = some r ∧ r.done ≤ s.hw.periodStart + 125000 ∧
      u.eng.engines[(0 : EngineNo)] = some r ∧ u.chan[(5 : Chan)] = some d := by decide +kernel

/-- A marked job completes; heads that just meet their deadline and just cannot, each with another job behind; and every engine
busy, and nothing waiting. -/
theorem witness_JobCompletionDispatchesHeads :
    (let r := running .decode (.payload []) true
     let s := completing (playing []) r [job .encode 175000]
     let u := s.advanceTo r.done
     s.rest = [] ∧ s.eng.engines[(0 : EngineNo)] = some r ∧ r.done ≤ s.hw.periodStart + 125000 ∧
     u.eng.engines[(0 : EngineNo)] = some r ∧ r.marked = true) ∧
    (let s := completing (playing []) { running .encode (.samples []) true with start := 115000, done := 225000 } []
     110000 < 125000 ∧ s.rest = [] ∧ s.hw.periodStart + 110000 < 115000 ∧ 115000 < s.hw.periodStart + 125000) ∧
    (∀ dl ∈ [175000, 174999],
      let s := withJobs (busy.set 2 none) [job .encode dl, job .decode 4000000] (withCall (playing []))
      s.eng.queue = job .encode dl :: [job .decode 4000000] ∧ s.eng.engines[(2 : EngineNo)] = none ∧
      (∀ n : EngineNo, n < 2 → (s.eng.engines[n]).isSome) ∧ s.chan[(5 : Chan)] = some (playing [])) ∧
    65000 + jobDurationNs .encode .l24 = 175000 ∧ (∀ e : EngineNo, (busy[e]).isSome) ∧ ready.eng.queue = [] := by
  decide +kernel

/-- A call with a DECODE job outstanding, a job of it waiting, and every engine busy for long, in the period that starts at
an instant. -/
def waiting (k : JobKind) (start : Nat) : State :=
  let late := busy.map fun r => r.map fun x => { x with done := 4100000 }
  let s := withJobs late [job k 4000000] (withCall { playing [] with outcome := .decode .pending })
  { s with hw := { s.hw with periodStart := start } }

/-- A job of each kind at its deadline, with the period started there, and at the end of the period before it. -/
theorem witness_JobDeadlineIsAMiss :
    ∀ k ∈ [JobKind.encode, .decode],
      (job k 4000000).chan = 5 ∧ (job k 4000000).kind = k ∧
      (∀ u ∈ [waiting k 4000000, waiting k 3875000, (waiting k 3875000).advanceTo (3875000 + 125000)],
        u.rest = [] ∧ job k 4000000 ∈ u.eng.queue ∧ (u.chan[(5 : Chan)]).isSome = true) ∧
      (waiting k 4000000).hw.periodStart = 4000000 ∧ (waiting k 3875000).hw.periodStart = 3875000 ∧
      ∀ x ∈ (waiting k 3875000).eng.queue, 3875000 < x.deadline := by decide +kernel

/-- R27: in a period of 140 µs a completion and a deadline 125 µs after its start are taken before the next period start, and
in one of 125 µs they are not. -/
theorem test_long_period :
    let r := { running .encode (.samples []) true with done := 125000 }
    let s := withJobs (busy.map fun _ => some r) [job .decode 125000] (withCall (playing []))
    (s.endPeriod 140000).eng.engines[(3 : EngineNo)] = none ∧ (s.endPeriod 140000).eng.queue = [] ∧
    (s.endPeriod 125000).eng.engines[(3 : EngineNo)] = some r ∧ (s.endPeriod 125000).eng.queue.length = 1 := by
  decide +kernel

/-- R27, R122: a completion 115 µs into a period, commanded before the pulse, starts the next job there in a period of
120 µs, and at the next period start in one of 110 µs. -/
theorem test_short_period_dispatch :
    let r := { running .encode (.samples []) true with start := 5000, done := 115000 }
    let s := after (.jobCompletion 0) (completing (playing []) r [job .encode 4000000])
    let runs := fun (t : State) => t.eng.engines[(0 : EngineNo)].map fun x => (x.start, x.done)
    runs (after (.fsyncPulse 120000 quiet) s) = some (115000, 225000) ∧
    runs (after (.fsyncPulse 110000 quiet) s) = some (125000, 235000) := by decide +kernel

/-- R48: a gain set after the period start is not the gain of the code that this period's block start sends. -/
theorem test_gain_of_the_period :
    let c := { playing [] with outcome := .decode (.ready (List.replicate 160 8000)), gainNow := 0, gainDn := 12 }
    (after (.outputBlockStart 5) (raised [.blockStart 5] (withCall { c with phiDn := 128 }))).hw.driven[(34 : SlotNo)] =
      some (compressALaw 8000) := by decide +kernel

/-- A load window end, in NORMAL and in OVERLOADED with and without a miss. -/
theorem witness_LoadWindowAndMissesMoveLoadState :
    ∀ l ∈ [LoadMonitor.mk .normal 15 0, ⟨.overloaded, 0, 0⟩, ⟨.overloaded, 1, 0⟩],
      let s := raised [.loadWindowEnd] { ready with eng := { ready.eng with load := l } }
      s.rest = [] ∧ .loadWindowEnd ∈ s.due ∧ s.eng.load = l := by decide +kernel

/-- A full queue of each kind of level, a class with a waiting state notice, each state of the transmitter, and a history at
31 and at 32 records. -/
theorem witness_NoticeQueueAndHistory :
    let q := List.replicate 32 (Notice.mk 1 0 (.callActive 5))
    let n : Notice := ⟨2, 0, .syncState .lost⟩
    (∀ m ∈ n :: q, m.level ≤ 3) ∧ (∀ m ∈ q, 1 ≤ m.level) ∧ (∃ m ∈ q, m.level < 2) ∧
    ((n :: q).filter fun m => m.body.cls ≠ (NoticeBody.syncState .locked).cls) = q ∧
    ready.settings.levels[(NoticeBody.syncState .locked).cls] = 2 ∧ ready.ctl.tx = .idle ∧ ready.ctl.answer = none ∧
    CtlTransmitter.answer ≠ .idle ∧ (some (order 0x81 [0])).isSome ∧
    (let h := List.replicate 32 (HistoryRecord.mk 0 5 .late .report .raised)
     h.length = 32 ∧ h.tail.length < 32) ∧ HistoryStyle.wrap ≠ .off ∧ HistoryStyle.keepFirst ≠ .off := by decide +kernel

/-- Units at the boundaries of each check: too short, a length that disagrees, kinds 0 and 5, SPEECH without a rate, a
payload length of another kind, and good ones of each kind and rate. Arrivals in DOWN, failing each check, for an unknown tag
and for a CLOSING call. -/
theorem witness_UnitChecksAndCounters :
    ([0x31, 44, 0, 0, 0, 0] : List Byte).length < 7 ∧ (unit 3 0 0 0 0 [] ++ [0]).length ≠ 7 + 0 ∧
    checkUnit (unit 0 0 0 0 0 []) = .error .format ∧ checkUnit (unit 5 0 0 0 0 []) = .error .format ∧
    checkUnit (unit 1 0 0 0 0 (List.replicate 62 0)) = .error .format ∧
    checkUnit (unit 1 0 0x40 0 0 (List.replicate 62 0)) = .error .length ∧ checkUnit (unit 2 0 0 0 0 []) = .error .length ∧
    (∀ x ∈ [((1 : Byte), (0x40 : Byte), 82), (1, 0x80, 62), (1, 0xC0, 42), (2, 0, 1), (3, 0, 0), (4, 0, 0)],
      (checkUnit (unit x.1 9 x.2.1 0 0 (List.replicate x.2.2 0))).toOption.isSome = true) ∧
    (State.reset.rest = [] ∧ State.reset.link.state = .down) ∧ ready.rest = [] ∧ ready.link.state ≠ .down ∧
    checkUnit [] = .error .length ∧
    (checkUnit goodUnit).toOption.any (fun x => x.1.tag = 300 && ready.tagMap[x.1.tag] = none) = true ∧
    let s := withCall { call with state := .closing }
    s.tagMap[(300 : Tag)] = some 5 ∧ ctx s (fun c => c.state = .closing) = true := by decide +kernel

/-- Arrivals that carry a request taken and ignored, an echo of the outstanding token, and a rate request. -/
theorem witness_ArrivalReachesAlignment :
    let c := { playing [] with request := some ⟨.sendEarlier, 80, 1⟩, upEcho := 3, drift := 7 }
    let s := withCall c
    s.rest = [] ∧ s.link.state ≠ .down ∧ s.tagMap[(300 : Tag)] = some 5 ∧ s.chan[(5 : Chan)] = some c ∧ c.state ≠ .closing ∧
    (checkUnit (unit 3 40 0x29 1 41 [])).toOption.any (fun x => x.1.tag = 300 && x.1.token = 2 && x.1.echo = 1 &&
      x.1.rateReq = 2 && x.1.dir = 1 && x.1.amount = 41) = true ∧
    (checkUnit (unit 3 40 0x0C 2 1 [])).toOption.any (fun x => x.1.token = c.upEcho && x.1.echo = 0) = true := by
  decide +kernel

/-- Arrivals of each verdict: first, duplicate, accepted in WAITING and in PLAYING, too early, resync and late, at the
boundaries of the distances. -/
theorem witness_ArrivalReachesPlayoutQueue :
    (∀ c ∈ [call, playing [entry 40 .noData], { call with expected := some 33 }, { playing [] with expected := some 32 },
        { playing [] with expected := some 169, tooEarlyRun := 2 }, { playing [] with expected := some 168, winCount := 49 }],
      let s := withCall c
      s.rest = [] ∧ s.link.state ≠ .down ∧ s.tagMap[(300 : Tag)] = some 5 ∧ s.chan[(5 : Chan)] = some c ∧
      c.state ≠ .closing) ∧
    (checkUnit goodUnit).toOption.any (fun x => x.1.tag = 300 && x.2.seq = 40) = true ∧
    seqDistance 33 40 = 7 ∧ seqDistance 32 40 = 8 ∧ seqDistance 169 40 = 127 ∧ seqDistance 168 40 = 128 := by decide +kernel

/-- Window ends with the margin below, in and above the band, with a request outstanding, and with an inconsistent band. -/
theorem witness_ObservationWindowEndJudges :
    (∀ c ∈ [{ playing [] with winMin := some 59, winLate := 10 }, { playing [] with winMin := some 60 },
        { playing [] with winMin := some 301 }, { playing [] with request := some ⟨.sendLater, 1, 3⟩ }],
      let s := { withCall c with rest := [.observationWindow 5] }
      s.rest = .observationWindow 5 :: [] ∧ s.chan[(5 : Chan)] = some c ∧ c.state ≠ .closing) ∧
    ¬ ({ Profile.default with marginLo := 300 }).marginLo < Profile.default.marginHi := by decide +kernel

/-- Each link state, with a frame at the head of the queue. -/
theorem witness_LinkStateFollowsLine :
    ∀ st ∈ [LinkState.down, .up, .paused],
      let sl : Slot := ⟨⟨.noData, 300, 0, none, none, none, 0, []⟩, false⟩
      let s0 := withCall (playing [])
      let s := { s0 with link := { s0.link with state := st, txQueue := [5], slots := s0.link.slots.set 5 (some sl) } }
      s.rest = [] ∧ s.link.state = st ∧ s.link.sending = none ∧ s.link.txQueue = [5] ∧
      s.link.slots[(5 : Chan)] = some sl ∧ ctx s (fun c => c.state ≠ .closing) = true ∧ s.chan[(6 : Chan)] = none := by
  decide +kernel

/-- A transmission that ends with another frame behind it, and none to end. -/
theorem witness_LinkLineEvents :
    let sl : Slot := ⟨⟨.noData, 300, 0, none, none, none, 0, []⟩, false⟩
    let s := { ready with link := { ready.link with
      slots := (ready.link.slots.set 5 (some sl)).set 6 (some sl), txQueue := [5, 6], sending := some 1520 } }
    ready.rest = [] ∧ ready.link.sending = none ∧ s.rest = [] ∧ s.link.sending = some 1520 ∧ s.link.txQueue = 5 :: [6] ∧
    s.link.state = .up ∧ (6 : Chan) ≠ 5 ∧ s.link.slots[(6 : Chan)] = some sl := by decide +kernel

/-- Each framing state, with bytes of each error at each parity, counts at the ends of their range, and bits that are no
frame. -/
theorem witness_MessageFraming :
    (∀ rx ∈ [RxState.hunt, .count, .body 3 [1] false true, .body 2 [1] true false], (ready.withRx rx).rest = [] ∧ (ready.withRx rx).ctl.rx = rx) ∧
    (∀ p ∈ [LineParity.none, .even, .odd],
      let s := { ready with settings := { ready.settings with line := ⟨.b9600, p⟩ }, ctl := (ready.withRx .count).ctl }
      s.rest = [] ∧ s.settings.line.parity = p ∧ s.ctl.rx = .count) ∧
    readFrame .none (frameBits 3 [true, true]) = none ∧
    readFrame .none (frameBits 3 [true]) = some (3, .none) ∧ readFrame .none (frameBits 3 [false]) = some (3, .framing) ∧
    readFrame .even (frameBits 3 [true, true]) = some (3, .parity) ∧
    readFrame .odd (frameBits 3 [false, false]) = some (3, .both) ∧ (dataBits 3).length = 8 ∧
    2 ≤ (2#8).toNat ∧ (250#8).toNat ≤ 250 ∧ (1#8).toNat < 2 ∧ 250 < (251#8).toNat ∧ [1#8].length + 1 < 3 ∧
    [1#8].length + 1 ≠ 3 ∧ 2 ≤ [1#8].length + 1 := by decide +kernel

/-- The last byte of a good message, with the buffer at 3 and at 4 orders, and of messages with each error. -/
theorem witness_MessageCompletion :
    (∀ pe ∈ [true, false], ∀ fe ∈ [true, false],
      let s := ready.withRx (.body 2 [1] pe fe)
      s.rest = [] ∧ readFrame s.settings.line.parity (frameBits 7 [true]) = some (7, .none) ∧ s.ctl.rx = .body 2 [1] pe fe ∧
      [1#8].length + 1 = 2 ∧ [1#8] ++ [7#8] = 1 :: 7 :: []) ∧
    (List.replicate 3 (order 1 [])).length < 4 ∧ 4 ≤ (List.replicate 4 (order 1 [])).length := by decide +kernel

/-- The transmitter in a state, with or without an accepted SET LINE, the receiver in a state and one notice waiting. -/
def ending (rx : RxState) (tx : CtlTransmitter) (line : Option LineSettings) : State :=
  { ready with ctl := { ready.ctl with
      rx := rx, tx := tx, newLine := line, answer := some (order 0x91 [0]), notices := [⟨3, 0, .lineOverrun⟩] } }

/-- Each state of the transmitter, with and without an accepted SET LINE, and the receiver in each framing state. -/
theorem witness_ControlTransmissionEnds :
    ∀ rx ∈ [RxState.hunt, .count, .body 3 [1] false true],
      (∀ tx ∈ [CtlTransmitter.idle, .answer, .notice ⟨3, 0, .lineOverrun⟩],
        (ending rx tx none).rest = [] ∧ (ending rx tx none).ctl.tx = tx ∧ (ending rx tx none).ctl.newLine = none) ∧
      let s := ending rx .answer (some ⟨.b9600, .odd⟩)
      s.rest = [] ∧ s.ctl.tx = .answer ∧ s.ctl.newLine = some ⟨.b9600, .odd⟩ ∧ s.ctl.rx = rx := by decide +kernel

/-- 11.1, 11.2: at the end of a SET LINE's answer a message being received, though marked bad, is abandoned with a notice of a
gap, and the notice that waited is sent next. -/
theorem test_set_line_abandons :
    let t := after .controlTransmitEnd (ending (.body 3 [1] true false) .answer (some ⟨.b9600, .odd⟩))
    t.ctl.rx = .hunt ∧ t.settings.line = ⟨.b9600, .odd⟩ ∧ t.ctl.tx = .notice ⟨3, 0, .lineOverrun⟩ ∧
    t.ctl.notices.map (·.body) = [.lineError .gap] := by decide +kernel

/-- Orders of an unknown kind, of a body too short and too long, of a mode that does not admit them, and of another
kind. -/
theorem witness_OrdersAreAdmittedInOrder :
    let close : OrderRow := ⟨.close, 0x0A, 1, 1, false, true, true⟩
    OrderReady (withOrder (order 0x12 []) ready) (order 0x12 []) ∧ 0x11 < (order 0x12 []).kind.toNat ∧
    (order 0 []).kind.toNat = 0 ∧ close ∈ orderCatalogue ∧ (order 0x0A []).kind.toNat = close.kind ∧
    (order 0x0A []).body.length < close.least ∧ close.greatest < (order 0x0A [1, 2]).body.length ∧
    close.admits State.reset.mode = false ∧ (order 0x0A [5]).body.length = 1 ∧
    (withOrder (order 0x0B [5]) ready).ctl.buffer.head? = some (order 0x0B [5]) ∧
    (order 0x0B [5]).kind.toNat ≠ close.kind := by
  refine ⟨order_ready _ _, ?_⟩
  decide +kernel

/-- The five reporting orders, an open and a FREE channel, and the profile numbers 15 and 16. -/
theorem witness_ReportsAnswerAndChangeNothing :
    (∀ o : Message, OrderReady (withOrder o (withCall call)) o) ∧
    (∀ x ∈ [((0x01 : Byte), ([] : List Byte)), (0x02, []), (0x06, [15]), (0x06, [16]), (0x0B, [5]), (0x0B, [255]),
      (0x0D, [])], (order x.1 x.2).kind = x.1 ∧ (order x.1 x.2).body = x.2) ∧
    [(5 : Byte)] = [byte (5 : Chan).val] ∧ (withCall call).chan[(5 : Chan)] = some call ∧
    (withCall call).chan[(255 : Chan)] = none := by
  refine ⟨fun o => order_ready o _, ?_⟩
  decide +kernel

/-- SET MODE to each mode and to 3, from each mode, with a call and without. -/
theorem witness_SetModeFollowsTable :
    (∀ (o : Message) (m : Mode), OrderReady (withOrder o { withCall call with mode := m }) o ∧
      OrderReady (withOrder o { ready with mode := m }) o) ∧
    (∀ m ∈ [(0 : Byte), 1, 2, 3], (order 0x03 [m]).kind = 0x03 ∧ (order 0x03 [m]).body = [m]) ∧ 2 < (3#8).toNat ∧
    (withCall call).chan[(5 : Chan)] ≠ none ∧ ∀ ch : Chan, ready.chan[ch] = none := by
  refine ⟨fun o m => ⟨order_ready o _, order_ready o _⟩, ?_⟩
  decide +kernel

/-- SET HIGHWAY in and outside SETUP, with each value at and beyond its range. -/
theorem witness_SetHighwayReplacesRecord :
    OrderReady (withOrder (order 0x04 [7, 1, 1, 31]) State.reset) (order 0x04 [7, 1, 1, 31]) ∧
    OrderReady (withOrder (order 0x04 [8, 2, 2, 32]) ready) (order 0x04 [8, 2, 2, 32]) ∧
    State.reset.mode = .setup ∧ ready.mode ≠ .setup ∧ (7#8).toNat < 8 ∧ (1#8).toNat ≤ 1 ∧
    (∀ b ∈ [31#8], b.toNat ≤ 31) ∧ 7 < (8#8).toNat ∧ 1 < (2#8).toNat ∧ ∃ b ∈ [32#8], 31 < b.toNat := by
  refine ⟨order_ready _ _, order_ready _ _, ?_⟩
  decide +kernel

/-- SET PROFILE of P16, of P0, of field 39, and of values at the ends of a range and beyond. -/
theorem witness_SetProfileWritesOneField :
    (∀ o : Message, OrderReady (withOrder o ready) o) ∧ (order 0x05 [1, 2, 0xFF, 0xF4]).body = [1, 2, 0xFF, 0xF4] ∧
    16 ≤ (16#8).toNat ∧ (15#8).toNat < 16 ∧ 15#8 ≠ 0 ∧ 39 ≤ (39#8).toNat ∧
    (BitVec.ofNat 16 (256 * 0xFF + 0xF4)).toInt = (fieldRange 2).1 ∧
    (BitVec.ofNat 16 (256 * 0xFF + 0xF3)).toInt < (fieldRange 2).1 ∧
    (fieldRange 2).2 < (BitVec.ofNat 16 (256 * 0 + 13)).toInt := by
  refine ⟨fun o => order_ready o _, ?_⟩
  decide +kernel

/-- SET DEVICE of each kind of setting, in SETUP and not, and SET LINE with good and bad values. -/
theorem witness_SetDeviceAndSetLine :
    (∀ o : Message, OrderReady (withOrder o ready) o ∧ OrderReady (withOrder o State.reset) o) ∧
    State.reset.mode = .setup ∧ ready.mode ≠ .setup ∧ 8 < (9#8).toNat ∧ (8#8).toNat = (6 : Fin 7).val + 2 ∧
    256 * 3 + 232 = 1000 ∧ 1000 < 256 * 3 + 233 ∧ speedOfCode (4#8).toNat = some .b115200 ∧ 4 < (5#8).toNat ∧
    parityOfCode (2#8).toNat = some .odd ∧ 2 < (3#8).toNat := by
  refine ⟨fun o => ⟨order_ready o _, order_ready o _⟩, ?_⟩
  decide +kernel

/-- OPEN refused at each check in turn: the mode, the load, a busy channel, a tag out of range and in use, a highway out
of range and disabled, a timeslot out of range, reserved and in use, and a profile out of range. -/
theorem witness_OpenRefusedByFirstFailingCheck :
    (∀ (o : Message) (s : State), OrderReady (withOrder o s) o) ∧
    (order 0x08 [5, 1, 44, 1, 2, 1]).body = [byte (5 : Chan).val, 1, 44, 1, 2, 1] ∧
    State.reset.mode ≠ .service ∧ ready.mode = .service ∧ ready.eng.load.state = .normal ∧
    ({ ready with eng := { ready.eng with load := ⟨.overloaded, 0, 50⟩ } }).eng.load.state ≠ .normal ∧
    (withCall call).chan[(5 : Chan)] ≠ none ∧ (withCall call).chan[(6 : Chan)] = none ∧ 4096 ≤ 256 * 16 + 0 ∧
    (withCall call).tagMap[(300 : Nat)] ≠ none ∧ (withCall call).tagMap[(4095 : Nat)] = none ∧ 8 ≤ (8#8).toNat ∧
    (let r := ready.hw.records.set 7 ⟨false, .aLaw, Vector.replicate 32 true⟩
     r[7].enabled = false ∧ r[6].enabled = true ∧ r[7].reserved[31] = true ∧ r[6].reserved[31] = false) ∧
    32 ≤ (32#8).toNat ∧ (withCall call).hw.bindings[slotNo 1 2] ≠ none ∧
    (withCall call).hw.bindings[slotNo 7 31] = none ∧ 16 ≤ (16#8).toNat := by
  refine ⟨fun o s => order_ready o s, ?_⟩
  decide +kernel

/-- An OPEN that passes every check, in LOCKED with the link UP and in LOST with it DOWN. -/
theorem witness_OpenSetsUpTheCall :
    let o := order 0x08 [6, 15, 255, 7, 31, 15]
    ∀ s ∈ [withCall call, State.resetWith true true true],
      (withOrder o s).ctl.proc = .idle ∧ o.body = [byte (6 : Chan).val, byte ((4095 : Tag).val / 256),
        byte (4095 : Tag).val, byte (7 : HighwayNo).val, byte (31 : Timeslot).val, byte (15 : ProfileNo).val] ∧
      s.mode = .service ∧ s.eng.load.state = .normal ∧ s.chan[(6 : Chan)] = none ∧ s.tagMap[(4095 : Tag)] = none ∧
      (s.hw.records[(7 : HighwayNo)]).enabled = true ∧ (s.hw.records[(7 : HighwayNo)]).reserved[(31 : Timeslot)] = false ∧
      s.hw.bindings[slotNo 7 31] = none ∧
      ∃ b : Bucket, (∀ x : Bucket, s.eng.buckets[b] ≤ s.eng.buckets[x]) ∧
        ∀ x : Bucket, x < b → s.eng.buckets[b] < s.eng.buckets[x] := by decide +kernel

/-- MODIFY with gains at and beyond their ends, and CLOSE, of an open and of a FREE channel, in SETUP and in SERVICE. -/
theorem witness_ModifyAndClose :
    (∀ (o : Message) (s : State), OrderReady (withOrder o s) o) ∧
    (order 0x09 [5, 0xF4, 12]).body = [byte (5 : Chan).val, 0xF4, 12] ∧ (0xF4#8).toInt = -12 ∧ (12#8).toInt = 12 ∧
    (0xF3#8).toInt < -12 ∧ 12 < (13#8).toInt ∧ (order 0x0A [5]).body = [byte (5 : Chan).val] ∧
    State.reset.mode = .setup ∧ (withCall call).mode ≠ .setup ∧ (withCall call).chan[(5 : Chan)] = some call ∧
    ready.chan[(5 : Chan)] = none := by
  refine ⟨fun o s => order_ready o s, ?_⟩
  decide +kernel

/-- CLEAR FAULTS of one channel and of all, with a kind whose condition is absent and one whose condition is present. -/
theorem witness_ClearFaultsClearsAbsentKinds :
    (∀ (o : Message) (s : State), OrderReady (withOrder o s) o) ∧ (order 0x0C [5]).body = [byte (5 : Chan).val] ∧
    (5#8) ≠ 255 ∧ (order 0x0C [255]).body = [255] ∧ ready.mode ≠ .setup ∧ ready.chan[(5 : Chan)] = none ∧
    ∀ p ∈ [true, false],
      let c := faulty .late ⟨p, .latched, .latched, 0, 0⟩
      (withCall c).chan[(5 : Chan)] = some c ∧ c.state = .faulted := by
  refine ⟨fun o s => order_ready o s, ?_⟩
  decide +kernel

/-- CLEAR HISTORY, and ACK NOTICES with a mask at the top of its range and beyond. -/
theorem witness_ClearHistoryAndAckNotices :
    (∀ o : Message, OrderReady (withOrder o ready) o) ∧ (order 0x0E []).body = [] ∧ (order 0x0F [0x7F]).body = [0x7F] ∧
    (0x7F#8).getLsbD 7 = false ∧ (0x80#8).getLsbD 7 = true := by
  refine ⟨fun o => order_ready o _, ?_⟩
  decide +kernel

/-- RESTART with a call open, in DRAIN. -/
theorem witness_RestartKeepsConfiguration :
    let s := { withCall (playing []) with mode := .drain }
    OrderReady (withOrder (order 0x10 []) s) (order 0x10 []) ∧ (order 0x10 []).body = [] ∧ s.mode = .drain := by
  refine ⟨order_ready _ _, ?_⟩
  decide +kernel

/-- Four subframes at the top scale and code of each rate. -/
theorem witness_SpeechPayloadRoundTrip :
    ∀ r ∈ [Rate.l32, .l24, .l16],
      let subs := List.replicate 4 (Subframe.mk 15 (List.replicate 40 (2 ^ r.bits - 1)))
      subs.length = 4 ∧ ∀ sf ∈ subs, sf.q < 16 ∧ sf.codes.length = 40 ∧ ∀ v ∈ sf.codes, v < 2 ^ r.bits := by
  decide +kernel

/-- An input of 161 samples. -/
theorem witness_DecoderTracksEncoder : (List.replicate 161 (-32768 : Int)).length = 161 := by decide +kernel

end Sys2Proof.Tests
end

