-- ==== Sys2Proof/Proofs/OpenRefusals.lean ====
section
/-! PROOF. OPEN refused (R5): how its command runs when it is ready, what its checks read from the six bytes of its body,
what each check answers when it is the first to fail, and O53. -/

namespace Sys2Proof.Machine

/-! ## The command -/

/-- The processor checks an OPEN's mode first, and leaves the rest to the order itself. -/
theorem openCall_of_ready {s : State} {o : Message} (ready : OrderReady s o) (kind : o.kind = 0x08)
    (length : o.body.length = 6) :
    exec .openCall s = .next (if s.mode = .service then s.takeOrder.orderOpen o else s.answered o .mode []) := by
  change Host.Outcome.next (s.finish.runOrder 0x08 State.orderOpen) = _
  rw [runOrder_of_ready 0x08 State.orderOpen ready (by rw [kind]; rfl), length]
  cases s.mode <;> rfl

/-- Taking the order out of the buffer touches nothing that the checks of OPEN read. -/
theorem checkOpen_takeOrder (o : Message) (s : State) : s.takeOrder.checkOpen o = s.checkOpen o := rfl

theorem orderOpen_of_error {s : State} {o : Message} {r : Result} (failed : s.checkOpen o = .error r) :
    s.takeOrder.orderOpen o = s.answered o r [] := by
  rw [State.orderOpen, checkOpen_takeOrder, failed]
  exact takeOrder_answer s o r []

/-! ## The checks, each as the first that fails -/

theorem ofNat_byte_chan (ch : Chan) : Fin.ofNat 256 (byte ch.val).toNat = ch := by
  apply Fin.ext
  simp [byte]

section checks
variable {s : State} {o : Message} {ch : Chan} {t1 t0 h n p : Byte}

/-- The checks of R5 after the mode's, on the six bytes of an OPEN's body. -/
theorem checkOpen_of_body (body : o.body = [byte ch.val, t1, t0, h, n, p]) :
    s.checkOpen o =
      if s.eng.load.state ≠ .normal then .error .load
      else if s.chan[ch].isSome then .error .channelBusy
      else if ht : 256 * t1.toNat + t0.toNat < 4096 then
        if s.tagMap[256 * t1.toNat + t0.toNat].isSome then .error .tagInUse
        else if hh : h.toNat < 8 then
          if !s.hw.records[h.toNat].enabled then .error .range
          else if hn : n.toNat < 32 then
            if s.hw.records[h.toNat].reserved[n.toNat] then .error .slotReserved
            else if s.hw.bindings[slotNo ⟨h.toNat, hh⟩ ⟨n.toNat, hn⟩].isSome then .error .slotInUse
            else if hp : p.toNat < 16 then
              .ok ⟨ch, ⟨256 * t1.toNat + t0.toNat, ht⟩, ⟨h.toNat, hh⟩, ⟨n.toNat, hn⟩, ⟨p.toNat, hp⟩⟩
            else .error .range
          else .error .range
        else .error .range
      else .error .range := by
  simp only [State.checkOpen, Message.at, body, List.getD_cons_zero, List.getD_cons_succ, ofNat_byte_chan, ofTwo]

end checks

/-! ## The obligation -/

/-- Settles O53: in SERVICE a failed check is the answer, and each part of the statement is one branch of the checks, under
the outcomes of those before it. -/
theorem openRefusedByFirstFailingCheck : Obligations.OpenRefusedByFirstFailingCheck := by
  intro s o ch t1 t0 h n p ready kind body tag refused
  have run := openCall_of_ready ready kind (by rw [body]; rfl)
  have checks := checkOpen_of_body (s := s) body
  refine ⟨fun hmode => by simp only [refused, run, if_neg hmode], fun hmode => ?_⟩
  have refuse : ∀ r, s.checkOpen o = .error r → refused r := fun r failed => by
    simp only [refused, run, if_pos hmode, orderOpen_of_error failed]
  refine ⟨fun overload => refuse _ (by rw [checks, if_pos overload]), fun normal => ?_⟩
  rw [if_neg (not_not.mpr normal)] at checks
  refine ⟨fun taken => refuse _ (by rw [checks, if_pos (Option.isSome_iff_ne_none.mpr taken)]), fun free => ?_⟩
  rw [if_neg (by simp [free])] at checks
  refine ⟨fun wide => refuse _ (by rw [checks, dif_neg (not_lt.mpr wide)]), fun ht => ?_⟩
  rw [dif_pos ht] at checks
  refine ⟨fun inUse => refuse _ (by rw [checks, if_pos (Option.isSome_iff_ne_none.mpr inUse)]), fun unused => ?_⟩
  rw [if_neg (by simp [tag, unused])] at checks
  refine ⟨fun beyond => refuse _ (by rw [checks, dif_neg (not_lt.mpr beyond)]), fun hh => ?_⟩
  rw [dif_pos hh] at checks
  refine ⟨fun off => refuse _ (by rw [checks, if_pos (by simp [off])]), fun on => ?_⟩
  rw [if_neg (by simp [on])] at checks
  refine ⟨fun beyond => refuse _ (by rw [checks, dif_neg (not_lt.mpr beyond)]), fun hn => ?_⟩
  rw [dif_pos hn] at checks
  refine ⟨fun reserved => refuse _ (by rw [checks, if_pos reserved]), fun usable => ?_⟩
  rw [if_neg (by simp [usable])] at checks
  refine ⟨fun bound => refuse _ (by rw [checks, if_pos (Option.isSome_iff_ne_none.mpr bound)]), fun unbound beyond => ?_⟩
  refine refuse _ ?_
  rw [checks, if_neg (by simp [unbound]), dif_neg (not_lt.mpr beyond)]

end Sys2Proof.Machine
end

