-- ==== Sys2Proof/Proofs/PeriodStart.lean ====
section
/-! PROOF. The period start (R23, R24, R27): the part of the state that no event of a period touches, that everything done
in a period and at its end keeps that part, what the period start's own work makes of it, and O16. -/

namespace Sys2Proof.Machine

/-! ## What no event of a period touches -/

/-- The highway interface with its timeslots left out: the clock, the sync state, the two runs and the records. -/
def HighwayBlock.clock (h : HighwayBlock) : HighwayBlock :=
  { h with bindings := Vector.replicate 256 none, driven := Vector.replicate 256 none }

/-- The part of the state that no event of a period touches: the clock and the configuration of the highways, the device
settings, the receive side of the link port and of the control line, and what waits outside the part. -/
structure Standing where
  hw : HighwayBlock
  settings : DeviceSettings
  freeCount : Nat
  pending : List Instr
  linkState : LinkState
  receiving : Bool
  errLength : Nat
  errFormat : Nat
  errUnknownTag : Nat
  errNotAccepting : Nat
  rx : RxState
  buffer : List Message
  overrun : Bool
  newLine : Option LineSettings

/-- The standing part of a state. Two states with the same one agree on all that O16 speaks of but the timeslots. -/
def State.standing (s : State) : Standing where
  hw := s.hw.clock
  settings := s.settings
  freeCount := s.freeCount
  pending := s.pending
  linkState := s.link.state
  receiving := s.link.receiving
  errLength := s.link.errLength
  errFormat := s.link.errFormat
  errUnknownTag := s.link.errUnknownTag
  errNotAccepting := s.link.errNotAccepting
  rx := s.ctl.rx
  buffer := s.ctl.buffer
  overrun := s.ctl.overrun
  newLine := s.ctl.newLine

/-! ## The shared operations keep it -/

theorem KeepsSetting.standing {s t : State} (h : KeepsSetting s t) : t.standing = s.standing := by
  have clock : t.hw.clock = s.hw.clock := by rw [h.hw]; rfl
  simp only [State.standing, clock, h.settings, h.freeCount, h.pending, h.linkState, h.receiving, h.errLength,
    h.errFormat, h.errUnknownTag, h.errNotAccepting, h.rx, h.buffer, h.overrun, h.newLine]

theorem Supervised.standing {ch : Chan} {s t : State} (h : Supervised ch s t) : t.standing = s.standing :=
  h.keeps.standing

theorem Worked.standing {s t : State} (h : Worked s t) : t.standing = s.standing := h.keeps.standing

theorem Observed.standing {ch : Chan} {s t : State} (h : Observed ch s t) : t.standing = s.standing := by
  simp only [State.standing, h.hw, h.settings, h.freeCount, h.pending, h.link, h.rx, h.buffer, h.overrun, h.newLine]

theorem standing_foldl {α : Type} (f : State → α → State) (hf : ∀ s a, (f s a).standing = s.standing) (xs : List α)
    (s : State) : (xs.foldl f s).standing = s.standing :=
  List.foldlRecOn xs f (motive := fun t => t.standing = s.standing) rfl fun t kept a _ => (hf t a).trans kept

theorem standing_forEachOpen (f : Chan → State → State) (hf : ∀ ch s, (f ch s).standing = s.standing) (s : State) :
    (s.forEachOpen f).standing = s.standing :=
  standing_foldl _ (fun t ch => hf ch t) _ s

@[simp] theorem standing_modCtx (ch : Chan) (f : Context → Context) (s : State) :
    (s.modCtx ch f).standing = s.standing := (keeps_modCtx ch f s).standing

@[simp] theorem standing_notify (b : NoticeBody) (s : State) : (s.notify b).standing = s.standing :=
  (keeps_notify b s).standing

@[simp] theorem standing_answer (o : Message) (r : Result) (more : List Byte) (s : State) :
    (s.answer o r more).standing = s.standing := by
  simp [State.standing, answer_ctl]

@[simp] theorem standing_placeFrame (ch : Chan) (kind : FrameKind) (rate : Option Rate) (payload : List Byte)
    (s : State) : (s.placeFrame ch kind rate payload).standing = s.standing :=
  (placeFrame_frame ch kind rate payload s).1.standing

@[simp] theorem standing_countMiss (ch : Chan) (kind : JobKind) (s : State) :
    (s.countMiss ch kind).standing = s.standing := (countMiss_frame ch kind s).1.standing

@[simp] theorem standing_missJob (ch : Chan) (kind : JobKind) (s : State) :
    (s.missJob ch kind).standing = s.standing := (missJob_frame ch kind s).1.standing

@[simp] theorem standing_dispatch (now : Nat) (s : State) : (s.dispatch now).standing = s.standing :=
  (worked_dispatch now s).standing

@[simp] theorem standing_submit (j : Job) (now : Nat) (s : State) : (s.submit j now).standing = s.standing :=
  (worked_submit j now s).standing

theorem standing_takeRest (s : State) (r : Rest) : (s.takeRest r).standing = s.standing := by
  cases r with
  | supervisionWindow ch => exact (supervised_supervisionWindowEnd ch s).standing
  | retryExpiry ch => exact (supervised_retryExpiry ch s).standing
  | observationWindow ch => exact (observed_observationWindowEnd ch s).standing

@[simp] theorem standing_finish (s : State) : s.finish.standing = s.standing :=
  standing_foldl State.takeRest standing_takeRest s.rest { s with rest := [] }

/-! ## The uplink boundary -/

theorem standing_faultUplink (ch : Chan) (s : State) : (s.faultUplink ch).standing = s.standing := by
  unfold State.faultUplink
  cases s.chan[ch] with
  | none => rfl
  | some c =>
    dsimp only
    split
    · next kind payload _ => exact standing_placeFrame ch kind none payload s
    · rfl

theorem standing_answerClose (ch : Chan) (st : Stats) (s : State) : (s.answerClose ch st).standing = s.standing := by
  unfold State.answerClose
  split
  · rfl
  · split
    · exact standing_answer _ _ _ _
    · rfl

theorem standing_drainToSetup (s : State) : s.drainToSetup.standing = s.standing := by
  unfold State.drainToSetup
  split
  · exact standing_notify _ _
  · rfl

theorem standing_completeClose (ch : Chan) (s : State) : (s.completeClose ch).standing = s.standing := by
  have placed := standing_placeFrame ch .endCall none [] s
  unfold State.completeClose
  dsimp only
  split
  · exact placed
  · next c _ =>
    have released : ((s.placeFrame ch .endCall none []).release ch c).standing = s.standing := placed
    rw [standing_drainToSetup, standing_answerClose, released]

theorem standing_uplinkByState (ch : Chan) (s : State) : (s.uplinkByState ch).standing = s.standing := by
  unfold State.uplinkByState
  cases s.chan[ch] with
  | none => rfl
  | some c =>
    dsimp only
    cases c.state with
    | aligning | active => exact standing_submit _ _ s
    | faulted => exact standing_faultUplink ch s
    | closing => exact standing_completeClose ch s

theorem standing_uplinkFinish (ch : Chan) (s : State) : (s.uplinkFinish ch).standing = s.standing := by
  unfold State.uplinkFinish
  cases s.chan[ch] <;> rfl

theorem standing_echoFaultFrame (ch : Chan) (s : State) : (s.echoFaultFrame ch).standing = s.standing := by
  rw [echoFaultFrame_touches]
  rfl

theorem standing_uplinkBoundary (ch : Chan) (s : State) : (s.uplinkBoundary ch).standing = s.standing := by
  unfold State.uplinkBoundary
  cases s.chan[ch] with
  | none => rfl
  | some c =>
    have settled : ({ s with chan := s.chan.set ch (some (c.settleRate (s.profileOf c).rateSet)) } : State).standing =
      s.standing := rfl
    dsimp only
    split <;> simp only [standing_echoFaultFrame, standing_uplinkFinish, standing_uplinkByState, settled]

/-! ## The downlink boundary -/

theorem standing_startPlayout (ch : Chan) (s : State) : (s.startPlayout ch).standing = s.standing := by
  unfold State.startPlayout
  cases s.chan[ch] with
  | none => rfl
  | some c =>
    dsimp only
    split
    · split
      · exact (standing_notify _ _).trans (standing_modCtx ch _ s)
      · exact standing_modCtx ch _ s
    · rfl

theorem standing_serveSpeech (ch : Chan) (rate : Rate) (payload : List Byte) (s : State) :
    (s.serveSpeech ch rate payload).standing = s.standing := by
  unfold State.serveSpeech
  cases s.chan[ch] with
  | none => rfl
  | some c =>
    dsimp only
    cases c.state with
    | faulted => exact standing_modCtx ch _ s
    | aligning | active | closing =>
      dsimp only
      split
      · exact (standing_countMiss ch .decode _).trans (standing_modCtx ch _ s)
      · exact (standing_submit _ _ _).trans (standing_modCtx ch _ s)

theorem standing_serve (ch : Chan) (e : QueueEntry) (s : State) : (s.serve ch e).standing = s.standing := by
  unfold State.serve
  cases e.kind with
  | speech => exact standing_serveSpeech ch _ e.payload s
  | sid | noData => exact standing_modCtx ch _ s
  | endCall => exact (standing_notify _ _).trans (standing_modCtx ch _ s)

theorem standing_playHead (ch : Chan) (s : State) : (s.playHead ch).standing = s.standing := by
  unfold State.playHead
  cases s.chan[ch] with
  | none => rfl
  | some c =>
    dsimp only
    cases c.playout with
    | waiting => exact standing_modCtx ch _ s
    | playing =>
      cases c.queue with
      | nil => exact standing_modCtx ch _ s
      | cons e rest =>
        dsimp only
        split
        · exact (standing_serve ch e _).trans (standing_modCtx ch _ s)
        · exact standing_modCtx ch _ s

theorem standing_moveWindow (ch : Chan) (before : List FaultKind) (s : State) :
    (s.moveWindow ch before).standing = s.standing := by
  unfold State.moveWindow
  cases s.chan[ch] <;> rfl

theorem standing_downlinkBoundary (ch : Chan) (s : State) : (s.downlinkBoundary ch).standing = s.standing := by
  unfold State.downlinkBoundary
  cases s.chan[ch] with
  | none => rfl
  | some c =>
    dsimp only
    cases c.state with
    | closing => exact standing_modCtx ch _ s
    | aligning | active | faulted =>
      exact (standing_moveWindow ch _ _).trans <| (standing_playHead ch _).trans <|
        (standing_startPlayout ch _).trans (supervised_raiseStarvation ch s).standing

/-! ## The output block start and the load window end -/

theorem standing_sendCode (ch : Chan) (s : State) : (s.sendCode ch).standing = s.standing := by
  unfold State.sendCode
  cases s.chan[ch] <;> rfl

theorem standing_chooseOutput (ch : Chan) (s : State) : (s.chooseOutput ch).standing = s.standing := by
  have missed : (s.missAtBlockStart ch).standing = s.standing := by
    unfold State.missAtBlockStart
    cases s.chan[ch] with
    | none => rfl
    | some c =>
      dsimp only
      split
      · exact standing_missJob ch .decode _
      · rfl
  exact (standing_modCtx ch _ _).trans missed

theorem standing_outputBlockStart (ch : Chan) (s : State) : (s.outputBlockStart ch).standing = s.standing :=
  (standing_sendCode ch _).trans (standing_chooseOutput ch s)

theorem standing_loadWindowEnd (s : State) : s.loadWindowEnd.standing = s.standing := by
  unfold State.loadWindowEnd
  dsimp only
  split
  · exact standing_notify _ _
  · rfl

/-! ## What the part does by itself in a period -/

theorem standing_takeEvent (d : Due) (s : State) : (s.takeEvent d).standing = s.standing := by
  cases d with
  | uplink ch => exact standing_uplinkBoundary ch _
  | downlink ch => exact standing_downlinkBoundary ch _
  | blockStart ch => exact standing_outputBlockStart ch _
  | loadWindowEnd => exact standing_loadWindowEnd _

theorem standing_takeIfDue (d : Due) (s : State) : (s.takeIfDue d).standing = s.standing := by
  unfold State.takeIfDue
  split
  · exact standing_takeEvent d s
  · rfl

theorem standing_takeDeadlines (now : Nat) (s : State) : (s.takeDeadlines now).standing = s.standing := by
  refine standing_foldl _ (fun t j => ?_) _ s
  unfold State.takeDeadline
  split
  · exact standing_missJob j.chan j.kind _
  · rfl

theorem standing_takeAllDue (s : State) : s.takeAllDue.standing = s.standing :=
  (standing_takeDeadlines _ _).trans <|
    standing_foldl _ (fun t d => (standing_finish _).trans (standing_takeIfDue d t)) _ s

theorem standing_takeResult (r : Running) (s : State) : (s.takeResult r).standing = s.standing := by
  unfold State.takeResult
  split
  · rfl
  · cases s.chan[r.job.chan] with
    | none => rfl
    | some c =>
      dsimp only
      split
      · split
        · rfl
        · exact (standing_placeFrame _ _ _ _ _).trans (standing_modCtx r.job.chan _ s)
      · split
        · exact standing_modCtx r.job.chan _ s
        · rfl
      · rfl
      · rfl

theorem standing_completeJob (e : EngineNo) (s : State) : (s.completeJob e).standing = s.standing := by
  unfold State.completeJob
  cases s.eng.engines[e] with
  | none => rfl
  | some r => exact (standing_dispatch _ _).trans (standing_takeResult r _)

theorem standing_completeBefore (t : Nat) : ∀ (n : Nat) (s : State), (s.completeBefore t n).standing = s.standing
  | 0, _ => rfl
  | n + 1, s => by
    unfold State.completeBefore
    split
    · rfl
    · next e _ => exact (standing_completeBefore t n _).trans (standing_completeJob e s)

theorem standing_advanceTo (t : Nat) (s : State) : (s.advanceTo t).standing = s.standing := by
  unfold State.advanceTo
  split
  · exact (standing_completeBefore t 16 _).trans (standing_takeAllDue s)
  · rfl

/-- A period that ends, whatever its length, leaves the clock for the period start to move. -/
theorem standing_endPeriod (tNs : Nat) (s : State) : (s.endPeriod tNs).standing = s.standing := by
  rcases Nat.lt_or_ge Config.samplePeriodNs tNs with long | short
  · rw [endPeriod_of_long tNs s long, standing_completeBefore, standing_takeDeadlines, standing_advanceTo]
  · rw [endPeriod_of_short tNs s short]
    exact standing_advanceTo _ s

/-! ## The period start's own work -/

theorem standing_writeSample (wasLost : Bool) (codes : HighwayCodes) (ch : Chan) (s : State) :
    (s.writeSample wasLost codes ch).standing = s.standing := by
  unfold State.writeSample
  cases s.chan[ch] with
  | none => rfl
  | some c =>
    dsimp only
    split
    · exact standing_modCtx ch _ s
    · rfl

theorem standing_raiseEvents (ch : Chan) (s : State) : (s.raiseEvents ch).standing = s.standing := by
  unfold State.raiseEvents
  cases s.chan[ch] <;> rfl

theorem standing_channelPeriod (wasLost : Bool) (codes : HighwayCodes) (ch : Chan) (s : State) :
    (s.channelPeriod wasLost codes ch).standing = s.standing := by
  have written : ∀ t : State, (if t.ahead.contains (.uplink ch) then t else t.writeSample wasLost codes ch).standing =
      t.standing := by
    intro t
    split
    · rfl
    · exact standing_writeSample wasLost codes ch t
  have sent : ∀ t : State, (if t.sendsNow ch then t.sendCode ch else t).standing = t.standing := by
    intro t
    split
    · exact standing_sendCode ch t
    · rfl
  exact (sent _).trans <| (standing_raiseEvents ch _).trans <| (written _).trans (standing_modCtx ch _ s)

theorem standing_takeAhead (wasLost : Bool) (codes : HighwayCodes) (s : State) (d : Due) :
    (s.takeAhead wasLost codes d).standing = s.standing := by
  cases d with
  | uplink ch =>
    exact (standing_finish _).trans ((standing_takeIfDue _ _).trans (standing_writeSample wasLost codes ch s))
  | downlink ch =>
    simp only [State.takeAhead]
    split
    · exact (standing_finish _).trans (standing_takeEvent _ s)
    · rfl
  | blockStart ch =>
    simp only [State.takeAhead]
    split
    · exact standing_chooseOutput ch _
    · rfl
  | loadWindowEnd => rfl

/-- The events commanded ahead find the clock moved and leave it so. -/
theorem standing_beginPeriod (codes : HighwayCodes) (s : State) :
    (s.beginPeriod codes).standing = { s.standing with hw := s.standing.hw.advance } :=
  standing_foldl _ (standing_takeAhead (s.hw.sync = .lost) codes) s.ahead { s with hw := s.hw.advance }

theorem standing_countWrap (s : State) : s.countWrap.standing = s.standing := by
  unfold State.countWrap
  split <;> rfl

/-- The highway interface after the runs have been counted and the sync state judged from them (R24). -/
def HighwayBlock.judged (good : Bool) (h : HighwayBlock) : HighwayBlock :=
  { h.countRuns good with sync := nextSync h.sync (h.countRuns good).goodRun (h.countRuns good).missingRun }

/-- The runs are counted up to 80 and the sync state is judged from them; the rest of the highway interface stays. -/
theorem judged_eq (good : Bool) (h : HighwayBlock) : h.judged good = { h with
    goodRun := if good then min 80 (h.goodRun + 1) else 0
    missingRun := if good then 0 else min 80 (h.missingRun + 1)
    sync := nextSync h.sync (if good then min 80 (h.goodRun + 1) else 0)
      (if good then 0 else min 80 (h.missingRun + 1)) } := by
  cases good <;> rfl

theorem clock_judged (good : Bool) (h : HighwayBlock) : (h.judged good).clock = h.clock.judged good := by
  cases good <;> rfl

/-- A change of the sync state adds its notice and the HIGHWAY findings or absences, which leave the highways alone. -/
theorem standing_judgeSync (good : Bool) (s : State) :
    (s.judgeSync good).standing = { s.standing with hw := s.standing.hw.judged good } := by
  have sync : (s.hw.countRuns good).sync = s.hw.sync := by cases good <;> rfl
  have moved : ({ s with hw := s.hw.judged good } : State).standing =
      { s.standing with hw := s.standing.hw.judged good } := by
    simp only [State.standing, clock_judged]
  rw [← moved]
  unfold State.judgeSync HighwayBlock.judged
  dsimp only
  rw [sync]
  split
  · rfl
  · split
    · exact (standing_forEachOpen _ (fun ch t => (supervised_findPresent ch .highway t).standing) _).trans
        (standing_notify _ _)
    · split
      · exact (standing_forEachOpen _ (fun ch t => (supervised_setAbsent ch .highway t).standing) _).trans
          (standing_notify _ _)
      · exact standing_notify _ _

/-- A period start moves the clock, counts the runs and judges the sync state, and keeps the rest of the standing part. -/
theorem standing_startPeriod (good : Bool) (codes : HighwayCodes) (s : State) :
    (s.startPeriod good codes).standing = { s.standing with hw := s.standing.hw.advance.judged good } := by
  have channels := standing_forEachOpen _ (standing_channelPeriod (s.hw.sync = .lost) codes)
    ((s.beginPeriod codes).countWrap.judgeSync good)
  refine channels.trans ?_
  rw [standing_judgeSync, standing_countWrap, standing_beginPeriod]

/-! ## The commands -/

/-- A command that starts a period ends the one in progress and does the period start's work. What was left of the last
event has not moved the local timer, so the pulse is as good after it. -/
theorem exec_of_startsPeriod {i : Instr} {good : Bool} {tNs : Nat} {codes : HighwayCodes} {s : State}
    (starts : StartsPeriod i good tNs codes s) : exec i s = .next ((s.atPeriodEnd tNs).startPeriod good codes) := by
  have timer : s.finish.hw.expected = s.hw.expected := congrArg (·.hw.expected) (standing_finish s)
  obtain ⟨rfl, rfl, early, late⟩ | ⟨rfl, rfl, rfl⟩ := starts
  · have hit : s.finish.hw.goodPulse tNs = true := by
      simp [HighwayBlock.goodPulse, Config.goodWindowNs, timer, early, late]
    change Host.Outcome.next (s.finish.takePulse tNs codes) = _
    rw [State.takePulse, if_pos hit]
    rfl
  · change Host.Outcome.next ((s.finish.endPeriod s.finish.hw.expected).startPeriod false codes) = _
    rw [timer]
    rfl

/-- Settles O16: everything done before the period start's own work keeps the standing part of the state, so each value is
a field of what that work makes of it. -/
theorem periodStartMovesClockAndSync : Obligations.PeriodStartMovesClockAndSync := by
  intro i good tNs codes s starts
  refine ⟨_, exec_of_startsPeriod starts, ?_⟩
  generalize ht : (s.atPeriodEnd tNs).startPeriod good codes = t
  have ended : (s.atPeriodEnd tNs).standing = s.standing :=
    (standing_endPeriod tNs s.finish).trans (standing_finish s)
  have started : t.standing = { s.standing with hw := s.standing.hw.advance.judged good } := by
    rw [← ht, standing_startPeriod, ended]
  rw [judged_eq] at started
  have goodRun : t.hw.goodRun = if good then min 80 (s.hw.goodRun + 1) else 0 := congrArg (·.hw.goodRun) started
  have missingRun : t.hw.missingRun = if good then 0 else min 80 (s.hw.missingRun + 1) :=
    congrArg (·.hw.missingRun) started
  refine ⟨congrArg (·.hw.c) started, congrArg (·.hw.cycle) started, congrArg (·.hw.periodStart) started,
    congrArg (·.hw.expected) started, goodRun, missingRun, ?judged, congrArg (·.hw.records) started,
    congrArg (·.settings) started, congrArg (·.freeCount) started, congrArg (·.pending) started,
    congrArg (·.linkState) started, congrArg (·.receiving) started, congrArg (·.errLength) started,
    congrArg (·.errFormat) started, congrArg (·.errUnknownTag) started, congrArg (·.errNotAccepting) started,
    congrArg (·.rx) started, congrArg (·.buffer) started, congrArg (·.overrun) started, congrArg (·.newLine) started⟩
  case judged =>
    rw [goodRun, missingRun]
    exact congrArg (·.hw.sync) started

end Sys2Proof.Machine
end

section
/-! PROOF. What supervision makes of one channel, said as one update: its context, the jobs it drops, and the notices and
records of its reports (R150, R151, R160, R161). -/

namespace Sys2Proof.Machine

/-! ## One entry of a table -/

section entry
variable {α : Type} {n : Nat} (v : Vector α n) (i j : Fin n) (a b : α)

@[simp] theorem set_getElem_fin_self : (v.set i a)[i] = a := by simp

theorem set_getElem_fin_other (h : j ≠ i) : (v.set i a)[j] = v[j] := by
  have : i.val ≠ j.val := fun e => h (Fin.ext e.symm)
  simp [this]

theorem set_getElem_fin : (v.set i a)[j] = if j = i then a else v[j] := by
  split
  · next h => subst h; simp
  · next h => exact set_getElem_fin_other v i j a h

@[simp] theorem set_of_getElem_fin (h : v[i] = a) : v.set i a = v := by
  subst h; simp

end entry

/-! ## Several notices and records -/

/-- The control line after these notices have been generated in this order (R178). -/
def ControlLine.tell (levels : Vector Nat 7) (cycle : BitVec 32) (bs : List NoticeBody) (ctl : ControlLine) : ControlLine :=
  bs.foldl (fun x b => x.generate ⟨levels[b.cls], cycle, b⟩) ctl

@[simp] theorem tell_nil (levels : Vector Nat 7) (cycle : BitVec 32) (ctl : ControlLine) :
    ctl.tell levels cycle [] = ctl := rfl

theorem tell_append (levels : Vector Nat 7) (cycle : BitVec 32) (as bs : List NoticeBody) (ctl : ControlLine) :
    ctl.tell levels cycle (as ++ bs) = (ctl.tell levels cycle as).tell levels cycle bs := List.foldl_append

/-- Generating notices writes the control line alone. -/
theorem notifyAll_eq : ∀ (bs : List NoticeBody) (s : State),
    s.notifyAll bs = { s with ctl := s.ctl.tell s.settings.levels s.hw.cycle bs }
  | [], _ => rfl
  | b :: bs, s => by
    change (s.notify b).notifyAll bs = _
    rw [notifyAll_eq bs]
    rfl

theorem notifyAll_ctl (bs : List NoticeBody) (s : State) :
    (s.notifyAll bs).ctl = s.ctl.tell s.settings.levels s.hw.cycle bs := by rw [notifyAll_eq]

theorem notifyAll_append (as bs : List NoticeBody) (s : State) :
    s.notifyAll (as ++ bs) = (s.notifyAll as).notifyAll bs := List.foldl_append

/-- The fields of the control line that a notice can write are its transmit side's. -/
theorem tell_touches (levels : Vector Nat 7) (cycle : BitVec 32) (bs : List NoticeBody) (ctl : ControlLine) :
    ctl.tell levels cycle bs = { ctl with
      flags := (ctl.tell levels cycle bs).flags
      notices := (ctl.tell levels cycle bs).notices
      tx := (ctl.tell levels cycle bs).tx } := by
  induction bs generalizing ctl with
  | nil => rfl
  | cons b bs ih =>
    have first : ctl.generate ⟨levels[b.cls], cycle, b⟩ = { ctl with
        flags := (ctl.generate ⟨levels[b.cls], cycle, b⟩).flags
        notices := (ctl.generate ⟨levels[b.cls], cycle, b⟩).notices
        tx := (ctl.generate ⟨levels[b.cls], cycle, b⟩).tx } := by
      unfold ControlLine.generate
      rw [choose_touches]
    have rest := ih (ctl.generate ⟨levels[b.cls], cycle, b⟩)
    change (ctl.generate ⟨levels[b.cls], cycle, b⟩).tell levels cycle bs = _ at rest
    change (ctl.generate ⟨levels[b.cls], cycle, b⟩).tell levels cycle bs = { ctl with
      flags := ((ctl.generate ⟨levels[b.cls], cycle, b⟩).tell levels cycle bs).flags
      notices := ((ctl.generate ⟨levels[b.cls], cycle, b⟩).tell levels cycle bs).notices
      tx := ((ctl.generate ⟨levels[b.cls], cycle, b⟩).tell levels cycle bs).tx }
    generalize (ctl.generate ⟨levels[b.cls], cycle, b⟩).tell levels cycle bs = last at rest ⊢
    rw [rest, first]

section tell
variable (levels : Vector Nat 7) (cycle : BitVec 32) (bs : List NoticeBody) (ctl : ControlLine)

@[simp] theorem tell_rx : (ctl.tell levels cycle bs).rx = ctl.rx := by rw [tell_touches]
@[simp] theorem tell_buffer : (ctl.tell levels cycle bs).buffer = ctl.buffer := by rw [tell_touches]
@[simp] theorem tell_overrun : (ctl.tell levels cycle bs).overrun = ctl.overrun := by rw [tell_touches]
@[simp] theorem tell_proc : (ctl.tell levels cycle bs).proc = ctl.proc := by rw [tell_touches]
@[simp] theorem tell_answer : (ctl.tell levels cycle bs).answer = ctl.answer := by rw [tell_touches]
@[simp] theorem tell_newLine : (ctl.tell levels cycle bs).newLine = ctl.newLine := by rw [tell_touches]

end tell

theorem historyAfter_append (as bs : List FaultReport) (s : State) :
    s.historyAfter (as ++ bs) = { s with history := s.historyAfter as }.historyAfter bs := List.foldl_append

/-- The state after these reports: their FAULT notices generated and their records offered, in this order. -/
def State.reported (rs : List FaultReport) (s : State) : State :=
  { s with
    ctl := s.ctl.tell s.settings.levels s.hw.cycle (rs.map FaultReport.notice)
    history := s.historyAfter rs }

@[simp] theorem reported_nil (s : State) : s.reported [] = s := rfl

theorem reported_append (as bs : List FaultReport) (s : State) :
    s.reported (as ++ bs) = (s.reported as).reported bs := by
  simp only [State.reported, List.map_append, tell_append, historyAfter_append]
  rfl

section reported
variable (rs : List FaultReport) (s : State)

@[simp] theorem reported_hw : (s.reported rs).hw = s.hw := rfl
@[simp] theorem reported_chan : (s.reported rs).chan = s.chan := rfl
@[simp] theorem reported_tagMap : (s.reported rs).tagMap = s.tagMap := rfl
@[simp] theorem reported_eng : (s.reported rs).eng = s.eng := rfl
@[simp] theorem reported_link : (s.reported rs).link = s.link := rfl
@[simp] theorem reported_faultFrames : (s.reported rs).faultFrames = s.faultFrames := rfl
@[simp] theorem reported_history : (s.reported rs).history = s.historyAfter rs := rfl
@[simp] theorem reported_profiles : (s.reported rs).profiles = s.profiles := rfl
@[simp] theorem reported_settings : (s.reported rs).settings = s.settings := rfl
@[simp] theorem reported_mode : (s.reported rs).mode = s.mode := rfl
@[simp] theorem reported_due : (s.reported rs).due = s.due := rfl
@[simp] theorem reported_ahead : (s.reported rs).ahead = s.ahead := rfl
@[simp] theorem reported_rest : (s.reported rs).rest = s.rest := rfl
@[simp] theorem reported_ctl : (s.reported rs).ctl = (s.notifyAll (rs.map FaultReport.notice)).ctl :=
  (notifyAll_ctl _ _).symm

end reported

/-! ## One channel's context -/

/-- The state with the context of a channel. -/
def State.setCtx (ch : Chan) (c : Context) (s : State) : State := { s with chan := s.chan.set ch (some c) }

section setCtx
variable (ch : Chan) (c d : Context) (s : State)

theorem modCtx_eq (f : Context → Context) (h : s.chan[ch] = some c) : s.modCtx ch f = s.setCtx ch (f c) :=
  modCtx_of_some ch f s h

@[simp] theorem setCtx_hw : (s.setCtx ch c).hw = s.hw := rfl
@[simp] theorem setCtx_tagMap : (s.setCtx ch c).tagMap = s.tagMap := rfl
@[simp] theorem setCtx_eng : (s.setCtx ch c).eng = s.eng := rfl
@[simp] theorem setCtx_link : (s.setCtx ch c).link = s.link := rfl
@[simp] theorem setCtx_faultFrames : (s.setCtx ch c).faultFrames = s.faultFrames := rfl
@[simp] theorem setCtx_history : (s.setCtx ch c).history = s.history := rfl
@[simp] theorem setCtx_profiles : (s.setCtx ch c).profiles = s.profiles := rfl
@[simp] theorem setCtx_settings : (s.setCtx ch c).settings = s.settings := rfl
@[simp] theorem setCtx_mode : (s.setCtx ch c).mode = s.mode := rfl
@[simp] theorem setCtx_ctl : (s.setCtx ch c).ctl = s.ctl := rfl
@[simp] theorem setCtx_due : (s.setCtx ch c).due = s.due := rfl
@[simp] theorem setCtx_ahead : (s.setCtx ch c).ahead = s.ahead := rfl
@[simp] theorem setCtx_rest : (s.setCtx ch c).rest = s.rest := rfl
@[simp] theorem setCtx_freeCount : (s.setCtx ch c).freeCount = s.freeCount := rfl
@[simp] theorem setCtx_pending : (s.setCtx ch c).pending = s.pending := rfl
@[simp] theorem setCtx_profileOf : (s.setCtx ch c).profileOf d = s.profileOf d := rfl

theorem setCtx_chan : (s.setCtx ch c).chan = s.chan.set ch (some c) := rfl

@[simp] theorem setCtx_chan_self : (s.setCtx ch c).chan[ch] = some c := set_getElem_fin_self s.chan ch (some c)

theorem setCtx_chan_other {e : Chan} (h : e ≠ ch) : (s.setCtx ch c).chan[e] = s.chan[e] :=
  set_getElem_fin_other s.chan ch e (some c) h

@[simp] theorem setCtx_setCtx : (s.setCtx ch c).setCtx ch d = s.setCtx ch d := by simp [State.setCtx]

theorem setCtx_of_same (h : s.chan[ch] = some c) : s.setCtx ch c = s := by
  simp only [State.setCtx, set_of_getElem_fin s.chan ch _ h]

@[simp] theorem setCtx_reported (rs : List FaultReport) : (s.setCtx ch c).reported rs = (s.reported rs).setCtx ch c := rfl

@[simp] theorem setCtx_notifyAll (bs : List NoticeBody) :
    (s.setCtx ch c).notifyAll bs = (s.notifyAll bs).setCtx ch c := by
  rw [notifyAll_eq, notifyAll_eq]; rfl

@[simp] theorem modCtx_setCtx (f : Context → Context) : (s.setCtx ch c).modCtx ch f = s.setCtx ch (f c) := by
  rw [modCtx_eq ch c _ f (setCtx_chan_self ch c s), setCtx_setCtx]

@[simp] theorem reported_profileOf (rs : List FaultReport) : (s.reported rs).profileOf c = s.profileOf c := rfl

/-- A report's notice and record, as the operations make them. -/
theorem notify_offerRecord (k : FaultKind) (cls : FaultClass) (ev : FaultEvent) :
    (s.notify (FaultReport.notice ⟨ch, k, cls, ev⟩)).offerRecord ch k cls ev = s.reported [⟨ch, k, cls, ev⟩] := rfl

end setCtx

/-! ## Fault records -/

section records
variable (c : Context) (k j : FaultKind) (r r' : FaultRecord)

theorem index_injective : ∀ {a b : FaultKind}, a.index = b.index → a = b := by
  intro a b h
  cases a <;> cases b <;> first | rfl | exact absurd h (by decide)

@[simp] theorem fault_setFault_self : (c.setFault k r).fault k = r := by simp [Context.fault, Context.setFault]

theorem fault_setFault_other (h : j ≠ k) : (c.setFault k r).fault j = c.fault j := by
  have : j.index ≠ k.index := fun e => h (index_injective e)
  exact set_getElem_fin_other c.faults k.index j.index r this

theorem fault_setFault : (c.setFault k r).fault j = if j = k then r else c.fault j := by
  split
  · next h => subst h; simp
  · next h => exact fault_setFault_other c k j r h

@[simp] theorem setFault_setFault : (c.setFault k r).setFault k r' = c.setFault k r' := by
  simp [Context.setFault]

@[simp] theorem setFault_fault : c.setFault k (c.fault k) = c := by
  simp [Context.setFault, Context.fault]

@[simp] theorem setFault_state : (c.setFault k r).state = c.state := rfl
@[simp] theorem setFault_profile : (c.setFault k r).profile = c.profile := rfl

end records

/-! ## A condition found present -/

/-- The jobs of a channel dropped and its fault frame count 0, as on entering FAULTED (R16, R144). -/
def State.dropJobs (ch : Chan) (s : State) : State :=
  { s with eng := s.eng.dropChannel ch, faultFrames := s.faultFrames.set ch 0 }

/-- Whether a finding of a kind with this class takes the channel to FAULTED (R151). -/
def Context.fallsBy (cls : FaultClass) (k : FaultKind) (c : Context) : Bool :=
  (c.state = .aligning || c.state = .active) && (c.fault k).state = .none && (cls = .retry || cls = .latched)

/-- The context of a channel that becomes FAULTED (R16). -/
def Context.fallen (c : Context) : Context := { c with state := .faulted, outcome := c.outcome.withdraw }

/-- The fault record of a kind whose condition is present (R146). -/
def FaultRecord.seen (r : FaultRecord) : FaultRecord := { r with present := true }

/-- The context after the condition of a kind has been found present, with the class, the retry time and the retry limit
of the kind in the channel's profile (R150, R151). -/
def Context.found (cls : FaultClass) (time limit : Nat) (k : FaultKind) (c : Context) : Context :=
  if c.state = .closing then c
  else if (c.fault k).state = .none then
    let named := c.setFault k ((c.fault k).seen.recognised cls time limit)
    if c.fallsBy cls k then named.fallen else named
  else c.setFault k (c.fault k).seen

/-- The context after a finding, with what the channel's profile holds for the kind. -/
def State.foundIn (s : State) (k : FaultKind) (c : Context) : Context :=
  c.found (s.profileOf c).cls[k.index] (s.profileOf c).retryTime[k.index] (s.profileOf c).retryLimit[k.index] k

/-- Whether a finding takes the channel to FAULTED, with the class in the channel's profile. -/
def State.fallsIn (s : State) (k : FaultKind) (c : Context) : Bool := c.fallsBy (s.profileOf c).cls[k.index] k

/-- Entering FAULTED is one update of a channel in ALIGNING or ACTIVE (R16, R151). -/
theorem enterFaulted_of_serving (ch : Chan) (s : State) {c : Context} (h : s.chan[ch] = some c)
    (serving : c.state = .aligning ∨ c.state = .active) : s.enterFaulted ch = (s.setCtx ch c.fallen).dropJobs ch := by
  unfold State.enterFaulted
  rcases serving with hc | hc <;> simp only [h, hc] <;> rfl

theorem enterFaulted_of_faulted (ch : Chan) (s : State) {c : Context} (h : s.chan[ch] = some c)
    (hc : c.state = .faulted) : s.enterFaulted ch = s := by
  simp only [State.enterFaulted, h, hc]

/-- The recognition of a kind writes its fault record and reports it, and RETRY and LATCHED enter FAULTED (R150). -/
theorem recognise_eq (ch : Chan) (k : FaultKind) (s : State) {c : Context} (h : s.chan[ch] = some c) {cls : FaultClass}
    (hcls : (s.profileOf c).cls[k.index] = cls) :
    s.recognise ch k =
      let r := (c.fault k).recognised cls (s.profileOf c).retryTime[k.index] (s.profileOf c).retryLimit[k.index]
      let raised := (s.reported [⟨ch, k, cls, .raised⟩]).setCtx ch (c.setFault k r)
      match cls with
      | .off => s
      | .report => raised
      | .retry | .latched => raised.enterFaulted ch := by
  simp only [State.recognise, h, hcls, modCtx_eq ch c s _ h]
  cases cls <;> rfl

theorem findPresent_of_free (ch : Chan) (k : FaultKind) (s : State) (h : s.chan[ch] = none) : s.findPresent ch k = s := by
  simp only [State.findPresent, h]

theorem findPresent_of_closing (ch : Chan) (k : FaultKind) (s : State) {c : Context} (h : s.chan[ch] = some c)
    (hc : c.state = .closing) : s.findPresent ch k = s := by
  simp only [State.findPresent, h, hc, if_true]

theorem setCondition_true (k : FaultKind) (c : Context) : c.setCondition k true = c.setFault k (c.fault k).seen := rfl

theorem found_of_closing {cls : FaultClass} {time limit : Nat} {k : FaultKind} {c : Context} (hc : c.state = .closing) :
    c.found cls time limit k = c := if_pos hc

theorem found_of_none {cls : FaultClass} {time limit : Nat} {k : FaultKind} {c : Context} (hc : c.state ≠ .closing)
    (hn : (c.fault k).state = .none) :
    c.found cls time limit k =
      let named := c.setFault k ((c.fault k).seen.recognised cls time limit)
      if c.fallsBy cls k then named.fallen else named := by
  unfold Context.found
  rw [if_neg hc, if_pos hn]

theorem found_of_known {cls : FaultClass} {time limit : Nat} {k : FaultKind} {c : Context} (hc : c.state ≠ .closing)
    (hn : (c.fault k).state ≠ .none) : c.found cls time limit k = c.setFault k (c.fault k).seen := by
  unfold Context.found
  rw [if_neg hc, if_neg hn]

theorem raisedBy_of_closing {s : State} {k : FaultKind} {ch : Chan} {c : Context} (hc : c.state = .closing) :
    s.raisedBy k ch c = [] := if_neg fun h => h.1 hc

theorem raisedBy_of_known {s : State} {k : FaultKind} {ch : Chan} {c : Context} (hn : (c.fault k).state ≠ .none) :
    s.raisedBy k ch c = [] := if_neg fun h => hn h.2.1

theorem raisedBy_of_none {s : State} {k : FaultKind} {ch : Chan} {c : Context} (hc : c.state ≠ .closing)
    (hn : (c.fault k).state = .none) :
    s.raisedBy k ch c = if (s.profileOf c).cls[k.index] = .off then []
      else [⟨ch, k, (s.profileOf c).cls[k.index], .raised⟩] := by
  unfold State.raisedBy
  by_cases ho : (s.profileOf c).cls[k.index] = .off
  · rw [if_neg (fun h => h.2.2 ho), if_pos ho]
  · rw [if_pos ⟨hc, hn, ho⟩, if_neg ho]

/-- A finding is one update: the context, the reports it raises, and the jobs it drops where the channel becomes FAULTED. -/
theorem findPresent_eq (ch : Chan) (k : FaultKind) (s : State) {c : Context} (h : s.chan[ch] = some c) :
    s.findPresent ch k =
      let told := (s.reported (s.raisedBy k ch c)).setCtx ch (s.foundIn k c)
      if s.fallsIn k c then told.dropJobs ch else told := by
  unfold State.foundIn State.fallsIn
  by_cases hc : c.state = .closing
  · simp [findPresent_of_closing ch k s h hc, found_of_closing hc, raisedBy_of_closing hc, Context.fallsBy, hc,
      setCtx_of_same ch c s h]
  by_cases hn : (c.fault k).state = .none
  · rw [found_of_none hc hn, raisedBy_of_none hc hn]
    simp only [State.findPresent, h, hc, hn, if_false, if_true, modCtx_eq ch c s _ h, setCondition_true]
    obtain ⟨cls, hcls⟩ : ∃ cls, (s.profileOf c).cls[k.index] = cls := ⟨_, rfl⟩
    rw [recognise_eq ch k _ (setCtx_chan_self ch (c.setFault k (c.fault k).seen) s) (cls := cls) hcls]
    simp only [hcls, fault_setFault_self, setFault_setFault, setCtx_reported, setCtx_setCtx]
    cases cls with
    | off => simp [FaultRecord.recognised, Context.fallsBy]
    | report => simp [Context.fallsBy]; rfl
    | retry | latched =>
      cases hs : c.state with
      | aligning | active =>
        rw [enterFaulted_of_serving ch _ (setCtx_chan_self ch _ _) (by simp [hs])]
        simp [Context.fallsBy, hs, hn]; rfl
      | faulted =>
        rw [enterFaulted_of_faulted ch _ (setCtx_chan_self ch _ _) (by simp [hs])]
        simp [Context.fallsBy, hs]; rfl
      | closing => exact absurd hs hc
  · rw [found_of_known hc hn, raisedBy_of_known hn]
    simp [State.findPresent, h, hc, hn, modCtx_eq ch c s _ h, Context.fallsBy, setCondition_true]

/-! ## A condition judged -/

/-- The context after the condition of a kind has been set absent (R146). -/
def Context.absent (k : FaultKind) (c : Context) : Context := if c.state = .closing then c else c.setCondition k false

theorem setAbsent_eq (ch : Chan) (k : FaultKind) (s : State) {c : Context} (h : s.chan[ch] = some c) :
    s.setAbsent ch k = s.setCtx ch (c.absent k) := modCtx_eq ch c s _ h

/-- The context after a condition has been judged. -/
def State.judgedIn (s : State) (k : FaultKind) (present : Bool) (c : Context) : Context :=
  if present then s.foundIn k c else c.absent k

/-- A judgement is one update, as a finding is. -/
theorem judge_eq (ch : Chan) (k : FaultKind) (present : Bool) (s : State) {c : Context} (h : s.chan[ch] = some c) :
    s.judge ch k present =
      let told := (s.reported (if present then s.raisedBy k ch c else [])).setCtx ch (s.judgedIn k present c)
      if present && s.fallsIn k c then told.dropJobs ch else told := by
  cases present with
  | true => simp [State.judge, State.judgedIn, findPresent_eq ch k s h]
  | false => simp [State.judge, State.judgedIn, setAbsent_eq ch k s h]

/-! ## The kinds of a channel acted on one after another -/

/-- The context after the fault record of each of these kinds has been changed, in this order. -/
def Context.tended (act : FaultKind → FaultRecord → FaultRecord) (ks : List FaultKind) (c : Context) : Context :=
  ks.foldl (fun x k => x.setFault k (act k (x.fault k))) c

section tended
variable (act : FaultKind → FaultRecord → FaultRecord) (c : Context)

@[simp] theorem tended_nil : c.tended act [] = c := rfl

theorem tended_cons (k : FaultKind) (ks : List FaultKind) :
    c.tended act (k :: ks) = (c.setFault k (act k (c.fault k))).tended act ks := rfl

/-- Acting on kinds writes the fault records alone. -/
theorem tended_touches (ks : List FaultKind) : c.tended act ks = { c with faults := (c.tended act ks).faults } := by
  induction ks generalizing c with
  | nil => rfl
  | cons k ks ih => rw [tended_cons, ih]; rfl

@[simp] theorem tended_state (ks : List FaultKind) : (c.tended act ks).state = c.state := by rw [tended_touches]
@[simp] theorem tended_started (ks : List FaultKind) : (c.tended act ks).started = c.started := by rw [tended_touches]
@[simp] theorem tended_profile (ks : List FaultKind) : (c.tended act ks).profile = c.profile := by rw [tended_touches]

/-- A kind acted on once has its record changed, and every other kind keeps its own. -/
theorem fault_tended {ks : List FaultKind} (once : ks.Nodup) (j : FaultKind) :
    (c.tended act ks).fault j = if j ∈ ks then act j (c.fault j) else c.fault j := by
  induction ks generalizing c with
  | nil => simp
  | cons k ks ih =>
    obtain ⟨first, once⟩ := List.nodup_cons.mp once
    rw [tended_cons, ih _ once, fault_setFault]
    by_cases hj : j = k
    · subst hj; simp [first]
    · simp [hj]

end tended

/-- An operation that acts on one kind at a time, folded over kinds: the context with each record changed, and the reports
of each in order. -/
theorem foldl_tended {ch : Chan} {prof : Profile} {f : State → FaultKind → State}
    {act : FaultKind → FaultRecord → FaultRecord} {reports : FaultKind → FaultRecord → List FaultReport}
    (one : ∀ (t : State) (d : Context) (k : FaultKind), t.chan[ch] = some d → t.profileOf d = prof →
      f t k = (t.reported (reports k (d.fault k))).setCtx ch (d.setFault k (act k (d.fault k)))) :
    ∀ (ks : List FaultKind) (s : State) (c : Context), ks.Nodup → s.chan[ch] = some c → s.profileOf c = prof →
      ks.foldl f s = (s.reported (ks.flatMap fun k => reports k (c.fault k))).setCtx ch (c.tended act ks) := by
  intro ks
  induction ks with
  | nil => intro s c _ h _; exact (setCtx_of_same ch c s h).symm
  | cons k ks ih =>
    intro s c once h hp
    obtain ⟨first, once⟩ := List.nodup_cons.mp once
    have others : (ks.flatMap fun j => reports j ((c.setFault k (act k (c.fault k))).fault j)) =
        ks.flatMap fun j => reports j (c.fault j) := by
      refine List.flatMap_congr fun j hj => ?_
      rw [fault_setFault_other]
      exact fun e => first (e ▸ hj)
    have acted := setCtx_chan_self ch (c.setFault k (act k (c.fault k))) (s.reported (reports k (c.fault k)))
    rw [List.foldl_cons, one s c k h hp, ih _ _ once acted hp, others, tended_cons]
    simp only [List.flatMap_cons, reported_append, setCtx_reported, setCtx_setCtx]

/-! ## Clearing, expiry and recovery -/

/-- The fault record of a kind that has returned to NONE (R153, R158). -/
def FaultRecord.dismissed (r : FaultRecord) : FaultRecord := { r with state := .none, retryCount := 0, captured := .none }

theorem clearKind_eq (ch : Chan) (k : FaultKind) (s : State) {c : Context} (h : s.chan[ch] = some c) :
    s.clearKind ch k =
      (s.reported [⟨ch, k, (c.fault k).captured.cls, .cleared⟩]).setCtx ch (c.setFault k (c.fault k).dismissed) := by
  simp only [State.clearKind, h, modCtx_eq ch c s _ h]
  rfl

/-- The fault record of an expired kind that has been acted on (R153, R154). -/
def FaultRecord.retried (time : Nat) (r : FaultRecord) : FaultRecord :=
  if r.present then r.afterFailedRetry time else r.dismissed

/-- The reports of an expired kind acted on: CLEARED, or ESCALATED where it becomes LATCHED (R153, R154). -/
def expiryReports (ch : Chan) (time : Nat) (k : FaultKind) (r : FaultRecord) : List FaultReport :=
  if r.present then if (r.afterFailedRetry time).state = .latched then [⟨ch, k, r.captured.cls, .escalated⟩] else []
  else [⟨ch, k, r.captured.cls, .cleared⟩]

theorem expireKind_eq (ch : Chan) (k : FaultKind) (s : State) {c : Context} (h : s.chan[ch] = some c) :
    State.expireKind ch s k =
      (s.reported (expiryReports ch (s.profileOf c).retryTime[k.index] k (c.fault k))).setCtx ch
        (c.setFault k ((c.fault k).retried (s.profileOf c).retryTime[k.index])) := by
  simp only [State.expireKind, h, expiryReports, FaultRecord.retried]
  split
  · rw [modCtx_eq ch c s _ h]
    split
    · rfl
    · rfl
  · exact clearKind_eq ch k s h

/-- Whether CLEAR FAULTS returns a kind of this record to NONE (R158). -/
def FaultRecord.clears (r : FaultRecord) : Bool := (r.state = .latched || r.state = .reported) && !r.present

/-- The fault record of a kind that CLEAR FAULTS has acted on (R158). -/
def FaultRecord.clearedIfAbsent (r : FaultRecord) : FaultRecord := if r.clears then r.dismissed else r

/-- The reports of a kind that CLEAR FAULTS has acted on. -/
def clearingReports (ch : Chan) (k : FaultKind) (r : FaultRecord) : List FaultReport :=
  if r.clears then [⟨ch, k, r.captured.cls, .cleared⟩] else []

theorem clearIfAbsent_eq (ch : Chan) (k : FaultKind) (s : State) {c : Context} (h : s.chan[ch] = some c) :
    State.clearIfAbsent ch s k =
      (s.reported (clearingReports ch k (c.fault k))).setCtx ch (c.setFault k (c.fault k).clearedIfAbsent) := by
  have kept := setCtx_of_same ch c s h
  cases hs : (c.fault k).state with
  | none | retrying =>
    simp [State.clearIfAbsent, h, clearingReports, FaultRecord.clearedIfAbsent, FaultRecord.clears, hs, kept]
  | reported | latched =>
    cases hp : (c.fault k).present <;>
      simp [State.clearIfAbsent, h, clearingReports, FaultRecord.clearedIfAbsent, FaultRecord.clears, hs, hp, kept,
        clearKind_eq ch k s h]

/-- Whether a channel recovers: FAULTED with no kind RETRYING or LATCHED (R156). -/
def Context.recovers (c : Context) : Bool := c.state = .faulted && !c.heldByFault

/-- The context after the recovery a channel may make (R17, R156). -/
def Context.recoveredIfClear (c : Context) : Context := if c.recovers then c.recovered else c

/-- The notice of a recovery to ACTIVE (R17). -/
def recoveryNotices (ch : Chan) (c : Context) : List NoticeBody :=
  if c.recovers && c.started then [.callActive ch] else []

theorem recoverIfClear_eq (ch : Chan) (s : State) {c : Context} (h : s.chan[ch] = some c) :
    s.recoverIfClear ch = (s.notifyAll (recoveryNotices ch c)).setCtx ch c.recoveredIfClear := by
  have kept := setCtx_of_same ch c s h
  simp only [State.recoverIfClear, h, recoveryNotices, Context.recoveredIfClear, Context.recovers, modCtx_eq ch c s _ h]
  by_cases hr : (c.state = .faulted && !c.heldByFault) = true
  · cases hst : c.started <;> simp only [hr] <;> rfl
  · simp only [hr]
    simp [State.notifyAll, kept]

theorem nodup_filter_allKinds (p : FaultKind → Bool) : (allKinds.filter p).Nodup :=
  List.Nodup.filter p (by decide)

theorem mem_allKinds (k : FaultKind) : k ∈ allKinds := by cases k <;> decide

/-- The context after the expired kinds have been acted on in order, before a recovery (R153, R154). -/
def State.expiredIn (s : State) (c : Context) : Context :=
  c.tended (fun k => FaultRecord.retried (s.profileOf c).retryTime[k.index]) c.expiredKinds

/-- The reports of the expired kinds acted on in order. -/
def State.expiryReportsOf (s : State) (ch : Chan) (c : Context) : List FaultReport :=
  c.expiredKinds.flatMap fun k => expiryReports ch (s.profileOf c).retryTime[k.index] k (c.fault k)

theorem retryExpiry_eq (ch : Chan) (s : State) {c : Context} (h : s.chan[ch] = some c) :
    s.retryExpiry ch =
      ((s.reported (s.expiryReportsOf ch c)).notifyAll (recoveryNotices ch (s.expiredIn c))).setCtx ch
        (s.expiredIn c).recoveredIfClear := by
  have folded := foldl_tended (ch := ch) (prof := s.profileOf c) (f := State.expireKind ch)
    (act := fun k => FaultRecord.retried (s.profileOf c).retryTime[k.index])
    (reports := fun k => expiryReports ch (s.profileOf c).retryTime[k.index] k)
    (fun t d k ht hp => by rw [expireKind_eq ch k t ht, hp]) c.expiredKinds s c (nodup_filter_allKinds _) h rfl
  simp only [State.retryExpiry, h]
  rw [folded, recoverIfClear_eq ch _ (setCtx_chan_self ch _ _)]
  rw [setCtx_notifyAll, setCtx_setCtx]
  rfl

/-- The context after CLEAR FAULTS has acted on its kinds, before a recovery (R158). -/
def Context.clearedAbsent (c : Context) : Context := c.tended (fun _ => FaultRecord.clearedIfAbsent) allKinds

/-- The reports of CLEAR FAULTS of a channel. -/
def Context.clearingReports (ch : Chan) (c : Context) : List FaultReport :=
  allKinds.flatMap fun k => Machine.clearingReports ch k (c.fault k)

theorem clearChannel_eq (ch : Chan) (s : State) {c : Context} (h : s.chan[ch] = some c) :
    s.clearChannel ch =
      ((s.reported (c.clearingReports ch)).notifyAll (recoveryNotices ch c.clearedAbsent)).setCtx ch
        c.clearedAbsent.recoveredIfClear := by
  have folded := foldl_tended (ch := ch) (prof := s.profileOf c) (f := State.clearIfAbsent ch)
    (act := fun _ => FaultRecord.clearedIfAbsent) (reports := Machine.clearingReports ch)
    (fun t d k ht _ => clearIfAbsent_eq ch k t ht) allKinds s c (by decide) h rfl
  rw [State.clearChannel, folded, recoverIfClear_eq ch _ (setCtx_chan_self ch _ _)]
  rw [setCtx_notifyAll, setCtx_setCtx]
  rfl

end Sys2Proof.Machine
end

section
/-! PROOF. Jobs and engines (R118 to R124): what leaving the queue, starting and waiting do to the order of the queue, the
times of the running jobs and the counts of a channel's jobs. -/

namespace Sys2Proof.Machine

/-! ## The order of the job queue -/

/-- The place of a job in the order of R119, as one number for each of its three parts. -/
theorem before_iff (a b : Job) : a.before b = true ↔
    a.deadline < b.deadline ∨ a.deadline = b.deadline ∧
      (a.chan < b.chan ∨ a.chan = b.chan ∧ jobRank a.kind < jobRank b.kind) := by
  simp [Job.before]

theorem before_trans {a b c : Job} (h : a.before b = true) (k : b.before c = true) : a.before c = true := by
  rw [before_iff] at *
  simp only [Fin.lt_def, Fin.ext_iff] at *
  omega

theorem before_asymm {a b : Job} (h : a.before b = true) : b.before a = false := by
  rw [Bool.eq_false_iff, Ne, before_iff]
  rw [before_iff] at h
  simp only [Fin.lt_def, Fin.ext_iff] at *
  omega

/-- The queue in the order of R119. -/
def InOrder (q : List Job) : Prop := q.Pairwise fun a b => b.before a = false

theorem mem_insertJob (j x : Job) (q : List Job) : x ∈ insertJob j q ↔ x = j ∨ x ∈ q := by
  induction q with
  | nil => simp [insertJob]
  | cons k rest ih =>
    unfold insertJob
    split
    · simp
    · simp only [List.mem_cons, ih]
      tauto

theorem countP_insertJob (p : Job → Bool) (j : Job) (q : List Job) :
    (insertJob j q).countP p = q.countP p + if p j then 1 else 0 := by
  induction q with
  | nil => simp [insertJob]
  | cons k rest ih =>
    unfold insertJob
    split
    · rw [List.countP_cons]
    · rw [List.countP_cons, ih, List.countP_cons]
      omega

theorem insertJob_ne_nil (j : Job) (q : List Job) : insertJob j q ≠ [] := by
  cases q with
  | nil => simp [insertJob]
  | cons k rest => unfold insertJob; split <;> simp

theorem inOrder_insertJob (j : Job) {q : List Job} (h : InOrder q) : InOrder (insertJob j q) := by
  induction q with
  | nil => simp [insertJob, InOrder]
  | cons k rest ih =>
    obtain ⟨first, others⟩ := List.pairwise_cons.mp h
    unfold insertJob
    split
    · next earlier =>
      refine List.pairwise_cons.mpr ⟨fun x hx => ?_, h⟩
      rcases List.mem_cons.mp hx with rfl | hx
      · exact before_asymm earlier
      · refine Bool.eq_false_iff.mpr fun hxj => ?_
        exact Bool.eq_false_iff.mp (first x hx) (before_trans hxj earlier)
    · next later =>
      refine List.pairwise_cons.mpr ⟨fun x hx => ?_, ih others⟩
      rcases (mem_insertJob j x rest).mp hx with rfl | hx
      · exact Bool.eq_false_iff.mpr later
      · exact first x hx

/-! ## Counting held jobs -/

/-- How many jobs of a sort wait or run. -/
def EngineBlock.held (p : Job → Bool) (eng : EngineBlock) : Nat :=
  eng.queue.countP p + eng.engines.toList.countP fun r => r.any fun x => p x.job

theorem engines_toList (v : Vector (Option Running) 4) : v.toList = (List.finRange 4).map fun e : EngineNo => v[e] := by
  apply List.ext_getElem <;> simp

theorem countP_engines_le {v w : Vector (Option Running) 4} {p : Option Running → Bool}
    (h : ∀ e : EngineNo, p w[e] = true → p v[e] = true) : w.toList.countP p ≤ v.toList.countP p := by
  rw [engines_toList, engines_toList, List.countP_map, List.countP_map]
  exact List.countP_mono_left fun e _ he => h e he

theorem countP_engines_set {v : Vector (Option Running) 4} {e : EngineNo} (idle : v[e] = none) (p : Job → Bool)
    (r : Running) : ((v.set e (some r)).toList.countP fun x => x.any fun y => p y.job) =
      (v.toList.countP fun x => x.any fun y => p y.job) + if p r.job then 1 else 0 := by
  have he : v.toList[e.val]'(by simp) = none := by simpa using idle
  rw [Vector.toList_set, List.countP_set (by simp)]
  simp [he]

theorem held_pos_of_holds {p : Job → Bool} {eng : EngineBlock} {j : Job} (h : eng.Holds j) (hp : p j = true) :
    0 < eng.held p := by
  unfold EngineBlock.held
  rcases h with hq | ⟨e, r, he, rfl⟩
  · exact Nat.add_pos_left (List.countP_pos_iff.mpr ⟨j, hq, hp⟩) _
  · refine Nat.add_pos_right _ (List.countP_pos_iff.mpr ⟨some r, ?_, by simpa using hp⟩)
    rw [← he]
    simp [engines_toList]

theorem held_eq_zero {p : Job → Bool} {eng : EngineBlock} (h : ∀ j, eng.Holds j → p j = false) : eng.held p = 0 := by
  unfold EngineBlock.held
  rw [Nat.add_eq_zero_iff, List.countP_eq_zero, List.countP_eq_zero]
  refine ⟨fun j hj => by simp [h j (.inl hj)], fun r hr => ?_⟩
  rw [engines_toList, List.mem_map] at hr
  obtain ⟨e, _, rfl⟩ := hr
  cases he : eng.engines[e] with
  | none => simp
  | some x => simp [h x.job (.inr ⟨e, x, he, rfl⟩)]

/-! ## Engines that hold no more than before -/

/-- Jobs have left the queue or an engine, or have been marked, and nothing else. -/
structure EngineBlock.Less (a b : EngineBlock) : Prop where
  queue : b.queue.Sublist a.queue
  engine : ∀ (e : EngineNo) (r' : Running), b.engines[e] = some r' → ∃ r, a.engines[e] = some r ∧ r'.job = r.job ∧
    r'.start = r.start ∧ r'.done = r.done ∧ r'.read = r.read

namespace EngineBlock.Less
variable {a b c : EngineBlock}

theorem of_same (hq : b.queue = a.queue) (he : b.engines = a.engines) : a.Less b :=
  ⟨by rw [hq], fun e r' h => ⟨r', by rw [← he]; exact h, rfl, rfl, rfl, rfl⟩⟩

theorem refl (a : EngineBlock) : a.Less a := of_same rfl rfl

theorem trans (h : a.Less b) (k : b.Less c) : a.Less c := by
  refine ⟨k.queue.trans h.queue, fun e r'' hr => ?_⟩
  obtain ⟨r', hr', j', s', d', x'⟩ := k.engine e r'' hr
  obtain ⟨r, hr, j, s, d, x⟩ := h.engine e r' hr'
  exact ⟨r, hr, j'.trans j, s'.trans s, d'.trans d, x'.trans x⟩

theorem dropChannel (ch : Chan) (a : EngineBlock) : a.Less (a.dropChannel ch) := by
  refine ⟨List.filter_sublist, fun e r' hr => ?_⟩
  have mapped : (a.engines[e]).map (fun x => if x.job.chan = ch then { x with marked := true } else x) = some r' := by
    simpa [EngineBlock.dropChannel] using hr
  obtain ⟨r, running, rfl⟩ := Option.map_eq_some_iff.mp mapped
  refine ⟨r, running, ?_⟩
  split <;> simp

theorem sublist {q : List Job} (h : q.Sublist a.queue) : a.Less { a with queue := q } :=
  ⟨h, fun _ r hr => ⟨r, hr, rfl, rfl, rfl, rfl⟩⟩

theorem free (e : EngineNo) (a : EngineBlock) : a.Less { a with engines := a.engines.set e none } := by
  refine ⟨List.Sublist.refl _, fun d r hr => ⟨r, ?_, rfl, rfl, rfl, rfl⟩⟩
  have hr : (a.engines.set e none)[d] = some r := hr
  rw [set_getElem_fin] at hr
  split at hr
  · exact absurd hr (by simp)
  · exact hr

theorem holds (h : a.Less b) {j : Job} (hj : b.Holds j) : a.Holds j := by
  rcases hj with hq | ⟨e, r', hr', rfl⟩
  · exact .inl (h.queue.subset hq)
  · obtain ⟨r, hr, job, _⟩ := h.engine e r' hr'
    exact .inr ⟨e, r, hr, job.symm⟩

theorem held (h : a.Less b) (p : Job → Bool) : b.held p ≤ a.held p := by
  refine Nat.add_le_add (h.queue.countP_le) (countP_engines_le fun e he => ?_)
  cases running : b.engines[e] with
  | none => simp [running] at he
  | some r' =>
    obtain ⟨r, hr, job, _⟩ := h.engine e r' running
    rw [hr]
    simpa [running, job] using he

end EngineBlock.Less

/-! ## What holds of the jobs -/

/-- The order, the times and the counts of R118 to R121 at a period start, with the deadlines on its raster (R117). -/
def EngineBlock.Ordered (start : Nat) (eng : EngineBlock) : Prop :=
  (∀ j, eng.Holds j → j.deadline % 125000 = start % 125000) ∧ InOrder eng.queue ∧
  (∀ (e : EngineNo) (r : Running), eng.engines[e] = some r →
    r.done = r.start + r.job.durationNs ∧ r.done ≤ r.job.deadline) ∧
  ∀ ch : Chan, eng.held (Job.isDecodeOf ch) ≤ 1

/-- No job waits while an engine is idle (R122). -/
def EngineBlock.NoWait (eng : EngineBlock) : Prop := eng.queue ≠ [] → ∀ e : EngineNo, (eng.engines[e]).isSome

/-- No deadline has been passed over, and no running job is a period overdue (R120, R124). -/
def EngineBlock.Timely (start : Nat) (eng : EngineBlock) : Prop :=
  (∀ j ∈ eng.queue, start ≤ j.deadline) ∧
  ∀ (e : EngineNo) (r : Running), eng.engines[e] = some r → start ≤ r.done + 125000

/-- The samples a waiting job carries, and those a running one carries and has read, are linear samples. -/
def EngineBlock.SamplesSound (eng : EngineBlock) : Prop :=
  (∀ j ∈ eng.queue, ∀ x ∈ j.input.linear, IsSample x) ∧
  ∀ (e : EngineNo) (r : Running), eng.engines[e] = some r →
    (∀ x ∈ r.job.input.linear, IsSample x) ∧ IsSample r.read.encY ∧ IsSample r.read.decY

theorem enginesInv_iff (s : State) : EnginesInv s ↔
    125000 ≤ s.hw.expected ∧ s.eng.Ordered s.hw.periodStart ∧ s.eng.NoWait := by
  unfold EnginesInv EngineBlock.Ordered EngineBlock.NoWait InOrder EngineBlock.held
  tauto

theorem samplesInv_iff (s : State) : SamplesInv s ↔
    (∀ (ch : Chan) (c : Context), s.chan[ch] = some c → c.SamplesSound) ∧ s.eng.SamplesSound := Iff.rfl

namespace EngineBlock.Less
variable {a b : EngineBlock}

theorem ordered (h : a.Less b) {start : Nat} (k : a.Ordered start) : b.Ordered start := by
  obtain ⟨raster, order, times, decodes⟩ := k
  refine ⟨fun j hj => raster j (h.holds hj), order.sublist h.queue, fun e r' hr' => ?_, fun ch =>
    (h.held _).trans (decodes ch)⟩
  obtain ⟨r, hr, job, start, done, _⟩ := h.engine e r' hr'
  rw [job, start, done]
  exact times e r hr

theorem samples (h : a.Less b) (k : a.SamplesSound) : b.SamplesSound := by
  refine ⟨fun j hj => k.1 j (h.queue.subset hj), fun e r' hr' => ?_⟩
  obtain ⟨r, hr, job, _, _, read⟩ := h.engine e r' hr'
  rw [job, read]
  exact k.2 e r hr

end EngineBlock.Less

/-! ## A job starts -/

/-- The engines after the head of the queue has been started by an engine. -/
def EngineBlock.starts (e : EngineNo) (j : Job) (more : List Job) (now : Nat) (read : CodecRead) (eng : EngineBlock) :
    EngineBlock :=
  { eng with queue := more, engines := eng.engines.set e (some ⟨j, now, now + j.durationNs, false, read⟩) }

section starts
variable {eng : EngineBlock} {e : EngineNo} {j : Job} {more : List Job} {now start : Nat} {read : CodecRead}

/-- A running job of the engines after a start is the one started, or ran before. -/
theorem running_starts {d : EngineNo} {r : Running} (h : (eng.starts e j more now read).engines[d] = some r) :
    r = ⟨j, now, now + j.durationNs, false, read⟩ ∨ eng.engines[d] = some r := by
  have h : (eng.engines.set e (some ⟨j, now, now + j.durationNs, false, read⟩))[d] = some r := h
  rw [set_getElem_fin] at h
  split at h
  · exact .inl (Option.some.inj h).symm
  · exact .inr h

theorem holds_starts (hq : eng.queue = j :: more) {x : Job} (h : (eng.starts e j more now read).Holds x) :
    eng.Holds x := by
  rcases h with hx | ⟨d, r, hr, rfl⟩
  · exact .inl (by rw [hq]; exact List.mem_cons_of_mem _ hx)
  · rcases running_starts hr with rfl | hr
    · exact .inl (by rw [hq]; exact List.mem_cons_self)
    · exact .inr ⟨d, r, hr, rfl⟩

theorem held_starts (hq : eng.queue = j :: more) (idle : eng.engines[e] = none) (p : Job → Bool) :
    (eng.starts e j more now read).held p = eng.held p := by
  simp only [EngineBlock.held, EngineBlock.starts, countP_engines_set idle, hq, List.countP_cons]
  omega

theorem ordered_starts (hq : eng.queue = j :: more) (idle : eng.engines[e] = none)
    (meets : now + j.durationNs ≤ j.deadline) (h : eng.Ordered start) :
    (eng.starts e j more now read).Ordered start := by
  obtain ⟨raster, order, times, decodes⟩ := h
  refine ⟨fun x hx => raster x (holds_starts hq hx), ?_, fun d r hr => ?_, fun ch => ?_⟩
  · rw [hq] at order
    exact (List.pairwise_cons.mp order).2
  · rcases running_starts hr with rfl | hr
    · exact ⟨rfl, meets⟩
    · exact times d r hr
  · rw [held_starts hq idle]
    exact decodes ch

theorem samples_starts (hq : eng.queue = j :: more) (encY : IsSample read.encY) (decY : IsSample read.decY)
    (h : eng.SamplesSound) : (eng.starts e j more now read).SamplesSound := by
  refine ⟨fun x hx => h.1 x (by rw [hq]; exact List.mem_cons_of_mem _ hx), fun d r hr => ?_⟩
  rcases running_starts hr with rfl | hr
  · exact ⟨h.1 j (by rw [hq]; exact List.mem_cons_self), encY, decY⟩
  · exact h.2 d r hr

end starts

/-! ## A job comes to wait -/

/-- The engines after a job has come to wait at its place. -/
def EngineBlock.joins (j : Job) (eng : EngineBlock) : EngineBlock := { eng with queue := insertJob j eng.queue }

section joins
variable {eng : EngineBlock} {j : Job} {start : Nat}

theorem holds_joins {x : Job} : (eng.joins j).Holds x ↔ x = j ∨ eng.Holds x := by
  simp only [EngineBlock.Holds, EngineBlock.joins, mem_insertJob, or_assoc]

theorem held_joins (p : Job → Bool) : (eng.joins j).held p = eng.held p + if p j then 1 else 0 := by
  simp only [EngineBlock.held, EngineBlock.joins, countP_insertJob]
  omega

theorem ordered_joins (raster : j.deadline % 125000 = start % 125000)
    (alone : j.kind = .decode → eng.held (Job.isDecodeOf j.chan) = 0) (h : eng.Ordered start) :
    (eng.joins j).Ordered start := by
  obtain ⟨deadlines, order, times, decodes⟩ := h
  refine ⟨fun x hx => ?_, inOrder_insertJob j order, times, fun ch => ?_⟩
  · rcases holds_joins.mp hx with rfl | hx
    · exact raster
    · exact deadlines x hx
  · rw [held_joins]
    split
    · next own =>
      simp only [Job.isDecodeOf, Bool.and_eq_true, decide_eq_true_eq] at own
      rw [← own.1, alone own.2]
    · exact decodes ch

theorem samples_joins (linear : ∀ x ∈ j.input.linear, IsSample x) (h : eng.SamplesSound) :
    (eng.joins j).SamplesSound := by
  refine ⟨fun x hx => ?_, h.2⟩
  rcases (mem_insertJob j x _).mp hx with rfl | hx
  · exact linear
  · exact h.1 x hx

end joins

/-! ## The lowest idle engine -/

theorem idle_of_idleEngine {eng : EngineBlock} {e : EngineNo} (h : eng.idleEngine = some e) : eng.engines[e] = none := by
  have found := List.find?_some h
  simpa using found

theorem busy_of_idleEngine {eng : EngineBlock} (h : eng.idleEngine = none) (e : EngineNo) : (eng.engines[e]).isSome := by
  have all := List.find?_eq_none.mp h e (by fin_cases e <;> decide)
  cases he : eng.engines[e] with
  | none => simp [he] at all
  | some r => rfl

theorem idleEngine_eq_none_iff {eng : EngineBlock} : eng.idleEngine = none ↔ ∀ e : EngineNo, (eng.engines[e]).isSome := by
  refine ⟨busy_of_idleEngine, fun h => List.find?_eq_none.mpr fun e _ => ?_⟩
  have busy := h e
  cases he : eng.engines[e] with
  | none => simp [he] at busy
  | some r => simp

/-- An idle engine with every lower one busy is the lowest idle one. -/
theorem idleEngine_eq_some {eng : EngineBlock} {e : EngineNo} (idle : eng.engines[e] = none)
    (lower : ∀ n : EngineNo, n < e → (eng.engines[n]).isSome) : eng.idleEngine = some e := by
  have before : ∀ d n : EngineNo, n ∈ [(0 : EngineNo), 1, 2, 3].take d.val → n < d := by decide
  have cut : ∀ d : EngineNo, [(0 : EngineNo), 1, 2, 3] = [0, 1, 2, 3].take d.val ++ d :: [0, 1, 2, 3].drop (d.val + 1) := by
    decide
  refine List.find?_eq_some_iff_append.mpr ⟨by rw [idle]; rfl, _, _, cut e, fun n hn => ?_⟩
  rw [← Option.not_isSome, lower n (before e n hn)]
  rfl

end Sys2Proof.Machine
end

section
/-! PROOF. The bounds of the notice queue, the control line and the history (R161, R176 to R179), and the agreement of the
transmit queue with the slots (R133, R141): each operation on these parts alone keeps them. -/

namespace Sys2Proof.Machine

/-! ## The notice queue -/

/-- At most 32 notices, in the order of their levels, each of level 1 to 3 (R178). -/
def NoticesSound (q : List Notice) : Prop :=
  q.length ≤ 32 ∧ q.Pairwise (fun a b => b.level ≤ a.level) ∧ ∀ n ∈ q, 1 ≤ n.level ∧ n.level ≤ 3

theorem noticesSound_nil : NoticesSound [] := ⟨by simp, .nil, by simp⟩

theorem NoticesSound.sublist {p q : List Notice} (h : NoticesSound q) (k : p.Sublist q) : NoticesSound p :=
  ⟨k.length_le.trans h.1, h.2.1.sublist k, fun n hn => h.2.2 n (k.subset hn)⟩

theorem mem_insertNotice (n x : Notice) (q : List Notice) : x ∈ insertNotice n q ↔ x = n ∨ x ∈ q := by
  induction q with
  | nil => simp [insertNotice]
  | cons m rest ih =>
    unfold insertNotice
    split
    · simp only [List.mem_cons, ih]; tauto
    · simp

theorem length_insertNotice (n : Notice) (q : List Notice) : (insertNotice n q).length = q.length + 1 := by
  induction q with
  | nil => rfl
  | cons m rest ih => unfold insertNotice; split <;> simp [ih]

/-- A notice stands after every notice of its level or a higher one and before the lower ones (R178 step 5). -/
theorem insertNotice_split (n : Notice) {q : List Notice} :
    ∃ before after, q = before ++ after ∧ insertNotice n q = before ++ n :: after ∧
      (∀ m ∈ before, n.level ≤ m.level) ∧ ∀ m, after.head? = some m → m.level < n.level := by
  induction q with
  | nil => exact ⟨[], [], rfl, rfl, by simp, by simp⟩
  | cons m rest ih =>
    obtain ⟨before, after, cut, put, high, low⟩ := ih
    by_cases hm : n.level ≤ m.level
    · refine ⟨m :: before, after, by rw [cut]; rfl, by simp [insertNotice, hm, put], ?_, low⟩
      simpa using ⟨hm, high⟩
    · exact ⟨[], m :: rest, rfl, by simp [insertNotice, hm], by simp, by simpa using hm⟩

theorem NoticesSound.insert {n : Notice} {q : List Notice} (h : NoticesSound q) (room : q.length < 32)
    (level : 1 ≤ n.level ∧ n.level ≤ 3) : NoticesSound (insertNotice n q) := by
  refine ⟨by rw [length_insertNotice]; omega, ?_, fun x hx => ?_⟩
  · obtain ⟨before, after, cut, put, high, low⟩ := insertNotice_split n (q := q)
    have sorted := h.2.1
    rw [cut, List.pairwise_append] at sorted
    obtain ⟨front, back, across⟩ := sorted
    have below : ∀ x ∈ after, x.level ≤ n.level := by
      cases after with
      | nil => simp
      | cons m more =>
        have first := low m rfl
        intro x hx
        rcases List.mem_cons.mp hx with rfl | hx
        · exact first.le
        · exact ((List.pairwise_cons.mp back).1 x hx).trans first.le
    rw [put, List.pairwise_append]
    refine ⟨front, List.pairwise_cons.mpr ⟨below, back⟩, fun a ha b hb => ?_⟩
    rcases List.mem_cons.mp hb with rfl | hb
    · exact high a ha
    · exact across a ha b hb
  · rcases (mem_insertNotice n x q).mp hx with rfl | hx
    · exact level
    · exact h.2.2 x hx

theorem foldl_min_le (ls : List Nat) : ∀ a : Nat, ls.foldl min a ≤ a ∧ ∀ l ∈ ls, ls.foldl min a ≤ l := by
  induction ls with
  | nil => simp
  | cons x xs ih =>
    intro a
    obtain ⟨base, each⟩ := ih (min a x)
    refine ⟨base.trans (min_le_left a x), fun l hl => ?_⟩
    rcases List.mem_cons.mp hl with rfl | hl
    · exact base.trans (min_le_right a l)
    · exact each l hl

theorem foldl_min_mem (ls : List Nat) : ∀ a : Nat, ls.foldl min a = a ∨ ls.foldl min a ∈ ls := by
  induction ls with
  | nil => simp
  | cons x xs ih =>
    intro a
    rcases ih (min a x) with h | h
    · rcases min_choice a x with hx | hx
      · exact .inl (by rw [List.foldl_cons, h, hx])
      · exact .inr (by rw [List.foldl_cons, h, hx]; simp)
    · exact .inr (by rw [List.foldl_cons]; exact List.mem_cons_of_mem _ h)

theorem lowestLevel_le {q : List Notice} {m : Notice} (h : m ∈ q) : lowestLevel q ≤ m.level :=
  (foldl_min_le _ 3).2 _ (List.mem_map_of_mem h)

/-- A queue with a notice in it holds one of the lowest level, where no level is above 3. -/
theorem exists_lowest {q : List Notice} (some : q ≠ []) (levels : ∀ n ∈ q, n.level ≤ 3) :
    ∃ m ∈ q, m.level = lowestLevel q := by
  rcases foldl_min_mem (q.map (·.level)) 3 with h | h
  · obtain ⟨m, hm⟩ := List.exists_mem_of_ne_nil q some
    have low : 3 ≤ m.level := h ▸ lowestLevel_le hm
    exact ⟨m, hm, (le_antisymm (levels m hm) low).trans h.symm⟩
  · obtain ⟨m, hm, eq⟩ := List.mem_map.mp h
    exact ⟨m, hm, eq⟩

theorem NoticesSound.enqueue {n : Notice} {q : List Notice} (h : NoticesSound q) (level : n.level ≤ 3) :
    NoticesSound (enqueueNotice n q) := by
  unfold enqueueNotice
  split
  · exact h
  next off =>
    have on : 1 ≤ n.level ∧ n.level ≤ 3 := ⟨Nat.one_le_iff_ne_zero.mpr off, level⟩
    have kept : NoticesSound (if n.body.isState then q.filter fun m => m.body.cls ≠ n.body.cls else q) := by
      split
      · exact h.sublist List.filter_sublist
      · exact h
    generalize (if n.body.isState then q.filter fun m => m.body.cls ≠ n.body.cls else q) = q1 at kept
    dsimp only
    split
    · next room => exact kept.insert room on
    · split
      · exact kept
      · next full _ =>
        have some : q1 ≠ [] := by rintro rfl; exact full (by simp)
        obtain ⟨m, hm, lowest⟩ := exists_lowest some fun x hx => (kept.2.2 x hx).2
        have shorter : (dropOldestLowest q1).length = q1.length - 1 :=
          List.length_eraseP_of_mem hm (by simpa using lowest)
        refine NoticesSound.insert (kept.sublist (List.eraseP_sublist)) ?_ on
        have bound := kept.1
        have := List.length_pos_of_ne_nil some
        unfold dropOldestLowest at shorter ⊢
        omega

/-! ## The control line -/

/-- The bounds of the control line alone. -/
def ControlLine.Sound (ctl : ControlLine) : Prop :=
  ctl.rx.Sound ∧ ctl.buffer.length ≤ 4 ∧ (∀ m ∈ ctl.buffer, m.body.length ≤ 248) ∧ NoticesSound ctl.notices ∧
  ctl.flags.getLsbD 7 = false ∧ (ctl.tx = .idle → ctl.answer = none ∧ ctl.notices = []) ∧
  (ctl.tx = .answer → ctl.answer.isSome) ∧ (ctl.newLine.isSome → ctl.answer.isSome) ∧
  ∀ g ch, ctl.proc = .holding g ch → ctl.answer = none

/-- No notice class has a level above 3 (R168). -/
def LevelsSound (levels : Vector Nat 7) : Prop := ∀ k : Fin 7, levels[k] ≤ 3

theorem controlInv_iff (s : State) : ControlInv s ↔
    s.ctl.Sound ∧ LevelsSound s.settings.levels ∧ s.history.length ≤ 32 := by
  unfold ControlInv ControlLine.Sound NoticesSound LevelsSound
  tauto

/-- The transmitter's choice keeps the bounds, and leaves it idle only with nothing to send. -/
theorem ControlLine.Sound.choose {ctl : ControlLine} (rx : ctl.rx.Sound) (few : ctl.buffer.length ≤ 4)
    (short : ∀ m ∈ ctl.buffer, m.body.length ≤ 248) (notices : NoticesSound ctl.notices)
    (flag : ctl.flags.getLsbD 7 = false) (answering : ctl.tx = .answer → ctl.answer.isSome)
    (line : ctl.newLine.isSome → ctl.answer.isSome) (held : ∀ g ch, ctl.proc = .holding g ch → ctl.answer = none) :
    ctl.choose.Sound := by
  refine ⟨by simpa using rx, by simpa using few, by simpa using short, ?_, by simpa using flag, ?_, ?_, by simpa using line,
    by simpa using held⟩
  · unfold ControlLine.choose
    split
    · split
      · exact notices
      · next n more h1 h2 => rw [h2] at notices; exact notices.sublist (List.sublist_cons_self n more)
      · exact notices
    · exact notices
    · exact notices
  · unfold ControlLine.choose
    split
    · split <;> simp_all
    · simp_all
    · simp_all
  · unfold ControlLine.choose
    split
    · split <;> simp_all
    · simpa using answering
    · simp_all

theorem flagBit_bit7 (cls : Fin 7) : (flagBit cls).getLsbD 7 = false := by
  fin_cases cls <;> decide

theorem ControlLine.Sound.generate {ctl : ControlLine} (h : ctl.Sound) {n : Notice} (level : n.level ≤ 3) :
    (ctl.generate n).Sound := by
  obtain ⟨rx, few, short, notices, flag, _, answering, line, held⟩ := h
  refine ControlLine.Sound.choose rx few short (notices.enqueue level) ?_ answering line held
  simp only [BitVec.getLsbD_or, flag, flagBit_bit7, Bool.or_self]

theorem ControlLine.Sound.tell {levels : Vector Nat 7} (sound : LevelsSound levels) (cycle : BitVec 32)
    (bs : List NoticeBody) {ctl : ControlLine} (h : ctl.Sound) : (ctl.tell levels cycle bs).Sound := by
  induction bs generalizing ctl with
  | nil => exact h
  | cons b bs ih => exact ih (h.generate (sound b.cls))

/-- An answer placed while the processor holds no CLOSE (R176). -/
theorem ControlLine.Sound.placeAnswer {ctl : ControlLine} (h : ctl.Sound) (idle : ctl.proc = .idle) (m : Message) :
    (ctl.placeAnswer m).Sound := by
  obtain ⟨rx, few, short, notices, flag, _, _, _, _⟩ := h
  refine ControlLine.Sound.choose rx few short notices flag (fun _ => rfl) (fun _ => rfl) fun g ch holding => ?_
  exact absurd (idle.symm.trans holding) (by simp)

/-! ## The history -/

theorem length_storeRecord_le (style : HistoryStyle) (r : HistoryRecord) {h : List HistoryRecord} (bound : h.length ≤ 32) :
    (storeRecord style r h).length ≤ 32 := by
  unfold storeRecord
  split
  · split <;> simp <;> omega
  · split
    · simp; omega
    · exact bound
  · exact bound

theorem length_historyAfter_le (rs : List FaultReport) {s : State} (bound : s.history.length ≤ 32) :
    (s.historyAfter rs).length ≤ 32 :=
  List.foldlRecOn rs _ (motive := fun h : List HistoryRecord => h.length ≤ 32) bound fun _ hb _ _ => length_storeRecord_le _ _ hb

/-! ## The egress side of the link port -/

/-- The transmit queue agrees with the slots, and the transmitter with its head (R133, R141). -/
def LinkPort.Sound (lp : LinkPort) : Prop :=
  lp.txQueue.Nodup ∧ (∀ ch : Chan, ch ∈ lp.txQueue ↔ (lp.slots[ch]).isSome) ∧
  (∀ ns, lp.sending = some ns → lp.state ≠ .down ∧
    ∃ ch rest sl, lp.txQueue = ch :: rest ∧ lp.slots[ch] = some sl ∧ ns = sl.frame.timeNs) ∧
  (lp.state = .up → lp.sending = none → lp.txQueue = [])

theorem egressInv_iff (s : State) : EgressInv s ↔ s.link.Sound := Iff.rfl

/-- Where queue and slots agree and a transmission in progress is the head's, a start leaves the port sound. -/
theorem LinkPort.Sound.start {lp : LinkPort} (once : lp.txQueue.Nodup)
    (slots : ∀ ch : Chan, ch ∈ lp.txQueue ↔ (lp.slots[ch]).isSome)
    (sending : ∀ ns, lp.sending = some ns → lp.state ≠ .down ∧
      ∃ ch rest sl, lp.txQueue = ch :: rest ∧ lp.slots[ch] = some sl ∧ ns = sl.frame.timeNs) : lp.start.Sound := by
  have head : ∀ ch rest, lp.txQueue = ch :: rest → ∃ sl, lp.slots[ch] = some sl := fun ch rest hq =>
    Option.isSome_iff_exists.mp ((slots ch).mp (by simp [hq]))
  refine ⟨by simpa using once, by simpa using slots, ?_, ?_⟩
  · intro ns hns
    rw [start_sending] at hns
    simp only [start_state, start_txQueue, start_slots]
    cases hs : lp.sending with
    | some n => exact sending ns (by rw [hs] at hns; rw [hs]; exact hns)
    | none =>
      simp only [hs] at hns
      split at hns
      · next up =>
        refine ⟨by simp [up], ?_⟩
        cases hq : lp.txQueue with
        | nil => simp [hq] at hns
        | cons ch rest =>
          obtain ⟨sl, hsl⟩ := head ch rest hq
          refine ⟨ch, rest, sl, rfl, hsl, ?_⟩
          have hsl : lp.slots[ch.val] = some sl := hsl
          simpa [hq, hsl] using hns.symm
      · exact absurd hns (by simp)
  · intro up idle
    rw [start_state] at up
    rw [start_sending] at idle
    rw [start_txQueue]
    cases hs : lp.sending with
    | some n => simp [hs] at idle
    | none =>
      cases hq : lp.txQueue with
      | nil => rfl
      | cons ch rest =>
        obtain ⟨sl, hsl⟩ := head ch rest hq
        have hsl : lp.slots[ch.val] = some sl := hsl
        simp [hs, up, hq, hsl] at idle

theorem LinkPort.Sound.place {lp : LinkPort} (h : lp.Sound) (ch : Chan) (f : Frame) : (lp.place ch f).Sound := by
  obtain ⟨once, slots, sending, idle⟩ := h
  have written : ∀ d : Chan, ((lp.slots.set ch (some (⟨f, false⟩ : Slot)))[d]).isSome ↔ d = ch ∨ (lp.slots[d]).isSome := by
    intro d
    rw [set_getElem_fin]
    split <;> simp_all
  unfold LinkPort.place
  split
  · next empty =>
    have absent : ch ∉ lp.txQueue := by rw [slots ch, empty]; simp
    refine LinkPort.Sound.start ?_ (fun d => ?_) fun ns hns => ?_
    · exact once.append (List.nodup_singleton ch) (by simpa using absent)
    · rw [written d, ← slots d]
      simp [or_comm]
    · obtain ⟨up, d, rest, sl, hq, hsl, time⟩ := sending ns hns
      have other : d ≠ ch := by rintro rfl; exact absent (by simp [hq])
      exact ⟨up, d, rest ++ [ch], sl, by simp [hq], by rw [set_getElem_fin_other _ _ _ _ other]; exact hsl, time⟩
  · next sl full =>
    have waits : ch ∈ lp.txQueue := (slots ch).mpr (by simp [full])
    have agree : ∀ d : Chan, d ∈ lp.txQueue ↔ ((lp.slots.set ch (some (⟨f, false⟩ : Slot)))[d]).isSome := fun d => by
      rw [written d, ← slots d]
      exact ⟨.inr, fun x => x.elim (fun e => e ▸ waits) id⟩
    split
    · refine LinkPort.Sound.start (by simpa using once) (by simpa using agree) ?_
      intro ns hns
      simp [abandon_eq] at hns
    · next notHead =>
      refine LinkPort.Sound.start once agree fun ns hns => ?_
      obtain ⟨up, d, rest, sl, hq, hsl, time⟩ := sending ns hns
      have other : d ≠ ch := by rintro rfl; exact notHead (by simp [hq])
      exact ⟨up, d, rest, sl, hq, by rw [set_getElem_fin_other _ _ _ _ other]; exact hsl, time⟩

/-- A change of the frames that keeps which slots are full and how long each frame takes. -/
theorem LinkPort.Sound.mapSlot {lp : LinkPort} (h : lp.Sound) (ch : Chan) (g : Slot → Slot)
    (time : ∀ sl, (g sl).frame.timeNs = sl.frame.timeNs) :
    ({ lp with slots := lp.slots.set ch ((lp.slots[ch]).map g) } : LinkPort).Sound := by
  obtain ⟨once, slots, sending, idle⟩ := h
  refine ⟨once, fun d => ?_, fun ns hns => ?_, idle⟩
  · refine (slots d).trans ?_
    change _ ↔ ((lp.slots.set ch ((lp.slots[ch]).map g))[d]).isSome
    rw [set_getElem_fin]
    split
    · next e => rw [e]; simp
    · exact Iff.rfl
  · obtain ⟨up, d, rest, sl, hq, hsl, rfl⟩ := sending ns hns
    by_cases e : d = ch
    · subst e
      exact ⟨up, d, rest, g sl, hq, by simp only [set_getElem_fin_self, hsl, Option.map_some], (time sl).symm⟩
    · exact ⟨up, d, rest, sl, hq, by simpa only [set_getElem_fin_other _ _ _ _ e] using hsl, rfl⟩

theorem LinkPort.Sound.setEcho {lp : LinkPort} (h : lp.Sound) (ch : Chan) (echo : Token) : (lp.setEcho ch echo).Sound :=
  h.mapSlot ch (fun sl => { sl with frame := { sl.frame with echo := echo } }) fun _ => rfl

theorem markLeftOver_eq (lp : LinkPort) (ch : Chan) : lp.markLeftOver ch =
    { lp with slots := lp.slots.set ch ((lp.slots[ch]).map fun sl => { sl with leftOver := true }) } := by
  unfold LinkPort.markLeftOver
  cases h : lp.slots[ch] with
  | none => simp only [Option.map_none, set_of_getElem_fin _ _ _ h]
  | some sl => rfl

theorem LinkPort.Sound.markLeftOver {lp : LinkPort} (h : lp.Sound) (ch : Chan) : (lp.markLeftOver ch).Sound := by
  rw [markLeftOver_eq]
  exact h.mapSlot ch _ fun _ => rfl

theorem LinkPort.Sound.endTransmission {lp : LinkPort} (h : lp.Sound) : lp.endTransmission.Sound := by
  unfold LinkPort.endTransmission
  split
  · next ns ch rest hs hq =>
    obtain ⟨once, slots, _, _⟩ := h
    rw [hq] at once slots
    obtain ⟨gone, once⟩ := List.nodup_cons.mp once
    refine LinkPort.Sound.start once (fun d => ?_) (by simp)
    have own := slots d
    rw [List.mem_cons] at own
    rw [set_getElem_fin]
    split
    · next e => rw [e]; simpa using gone
    · next other => exact (or_iff_right other).symm.trans own
  · exact h

/-- The link becomes DOWN: no transmission goes on there (R134, R142). -/
theorem LinkPort.Sound.down {lp : LinkPort} (h : lp.Sound) :
    ({ lp.abandon.cutUnit with state := .down } : LinkPort).Sound := by
  obtain ⟨once, slots, _, _⟩ := h
  have cut : ∀ lp : LinkPort, lp.cutUnit = { lp with receiving := lp.cutUnit.receiving, errLength := lp.cutUnit.errLength } := by
    intro lp
    unfold LinkPort.cutUnit
    split <;> rfl
  rw [cut, abandon_eq]
  exact ⟨once, slots, by simp, by simp⟩

/-- The link becomes UP and the head channel's frame starts (R134, R141). -/
theorem LinkPort.Sound.up {lp : LinkPort} (h : lp.Sound) : ({ lp with state := .up } : LinkPort).start.Sound := by
  obtain ⟨once, slots, sending, _⟩ := h
  refine LinkPort.Sound.start once slots fun ns hns => ⟨by simp, (sending ns hns).2⟩

theorem LinkPort.Sound.pause {lp : LinkPort} (h : lp.Sound) : ({ lp with state := .paused } : LinkPort).Sound := by
  obtain ⟨once, slots, sending, _⟩ := h
  exact ⟨once, slots, fun ns hns => ⟨by simp, (sending ns hns).2⟩, by simp⟩

/-- An emptied link port is sound in any state. -/
theorem LinkPort.Sound.empty {lp : LinkPort} (slots : lp.slots = Vector.replicate 256 none) (queue : lp.txQueue = [])
    (idle : lp.sending = none) : lp.Sound := by
  refine ⟨by simp [queue], fun ch => ?_, by simp [idle], fun _ _ => queue⟩
  simp [queue, slots]

end Sys2Proof.Machine
end

section
/-! PROOF. What an event may do between two changes of the calls, the clock or the order processor, said once: a calm
change keeps the maps, the phases, the modes and the buckets as they are, and keeps every invariant of the profiles, the
control line, the link port, the jobs and the samples. Each shared operation is calm; the invariants follow. -/

namespace Sys2Proof.Machine

/-! ## Calm changes -/

/-- A pending adjust moves 1 to 40 samples (R106). -/
def Context.AdjustSound (c : Context) : Prop := ∀ a, c.adjust = some a → 1 ≤ a.k ∧ a.k ≤ 40

/-- A change of a context that keeps its entries in the maps, its phases and whether it is CLOSING, and keeps its adjust,
its playout queue and its fault records sound. -/
structure Context.Calm (c d : Context) : Prop where
  tag : d.tag = c.tag := by rfl
  highway : d.highway = c.highway := by rfl
  timeslot : d.timeslot = c.timeslot := by rfl
  phiUp : d.phiUp = c.phiUp := by rfl
  phiDn : d.phiDn = c.phiDn := by rfl
  nUp : d.nUp = c.nUp := by rfl
  blockLen : d.blockLen = c.blockLen := by rfl
  fresh : d.fresh = c.fresh := by rfl
  closing : d.state = .closing ↔ c.state = .closing := by exact Iff.rfl
  adjust : c.AdjustSound → d.AdjustSound := by exact id
  playout : c.PlayoutSound → d.PlayoutSound := by exact id
  faults : c.FaultsSound → d.FaultsSound := by exact id

theorem Context.Calm.refl (c : Context) : c.Calm c := {}

theorem Context.Calm.trans {c d e : Context} (h : c.Calm d) (k : d.Calm e) : c.Calm e where
  tag := k.tag.trans h.tag
  highway := k.highway.trans h.highway
  timeslot := k.timeslot.trans h.timeslot
  phiUp := k.phiUp.trans h.phiUp
  phiDn := k.phiDn.trans h.phiDn
  nUp := k.nUp.trans h.nUp
  blockLen := k.blockLen.trans h.blockLen
  fresh := k.fresh.trans h.fresh
  closing := k.closing.trans h.closing
  adjust := k.adjust ∘ h.adjust
  playout := k.playout ∘ h.playout
  faults := k.faults ∘ h.faults

/-- A change of the state that keeps what belongs to no single event. -/
structure Calm (s t : State) : Prop where
  c : t.hw.c = s.hw.c := by rfl
  periodStart : t.hw.periodStart = s.hw.periodStart := by rfl
  expected : 125000 ≤ s.hw.expected → 125000 ≤ t.hw.expected := by exact id
  bindings : t.hw.bindings = s.hw.bindings := by rfl
  tagMap : t.tagMap = s.tagMap := by rfl
  mode : t.mode = s.mode := by rfl
  proc : t.ctl.proc = s.ctl.proc := by rfl
  answer : s.ctl.answer = none → t.ctl.answer = none := by exact id
  buckets : t.eng.buckets = s.eng.buckets := by rfl
  ahead : t.ahead = s.ahead := by rfl
  uplink : ∀ ch : Chan, .uplink ch ∈ t.due ↔ .uplink ch ∈ s.due := by exact fun _ => Iff.rfl
  chan : ∀ ch : Chan, Option.Rel Context.Calm s.chan[ch] t.chan[ch]
  profiles : ProfilesInv s → ProfilesInv t := by exact id
  control : ControlInv s → ControlInv t := by exact id
  egress : s.link.Sound → t.link.Sound := by exact id
  ordered : s.eng.Ordered s.hw.periodStart → t.eng.Ordered s.hw.periodStart := by exact id
  waiting : ∀ j ∈ t.eng.queue, j ∈ s.eng.queue ∨ s.hw.periodStart < j.deadline := by exact fun _ h => .inl h
  running : ∀ (e : EngineNo) (r : Running), t.eng.engines[e] = some r →
    (∃ r0, s.eng.engines[e] = some r0 ∧ r0.done = r.done) ∨ s.hw.periodStart ≤ r.done := by
    exact fun _ r h => .inl ⟨r, h, rfl⟩
  encodes : ∀ ch : Chan, t.eng.held (Job.isEncodeOf ch) ≤ s.eng.held (Job.isEncodeOf ch) := by exact fun _ => le_rfl
  holds : ∀ j : Job, j.kind = .encode → t.eng.Holds j → s.eng.Holds j := by exact fun _ _ h => h
  samples : SamplesInv s → SamplesInv t := by exact id

/-- A calm change that leaves no job waiting beside an idle engine where none waited before (R122). -/
structure Quiet (s t : State) : Prop extends Calm s t where
  noWait : s.eng.NoWait → t.eng.NoWait := by exact id

theorem rel_calm_refl (x : Option Context) : Option.Rel Context.Calm x x := by
  cases x with
  | none => exact .none
  | some c => exact .some (.refl c)

theorem rel_calm_trans {x y z : Option Context} (h : Option.Rel Context.Calm x y) (k : Option.Rel Context.Calm y z) :
    Option.Rel Context.Calm x z := by
  cases h with
  | none => exact k
  | some h => cases k with
    | some k => exact .some (h.trans k)

theorem Calm.refl (s : State) : Calm s s where
  chan _ := rel_calm_refl _

theorem Quiet.refl (s : State) : Quiet s s where
  chan _ := rel_calm_refl _

theorem Calm.trans {s t u : State} (h : Calm s t) (k : Calm t u) : Calm s u where
  c := k.c.trans h.c
  periodStart := k.periodStart.trans h.periodStart
  expected := k.expected ∘ h.expected
  bindings := k.bindings.trans h.bindings
  tagMap := k.tagMap.trans h.tagMap
  mode := k.mode.trans h.mode
  proc := k.proc.trans h.proc
  answer := k.answer ∘ h.answer
  buckets := k.buckets.trans h.buckets
  ahead := k.ahead.trans h.ahead
  uplink ch := (k.uplink ch).trans (h.uplink ch)
  chan ch := rel_calm_trans (h.chan ch) (k.chan ch)
  profiles := k.profiles ∘ h.profiles
  control := k.control ∘ h.control
  egress := k.egress ∘ h.egress
  ordered := fun x => h.periodStart ▸ k.ordered (h.periodStart.symm ▸ h.ordered x)
  waiting j hj := (k.waiting j hj).elim (h.waiting j) fun later => .inr (h.periodStart ▸ later)
  running e r hr := by
    rcases k.running e r hr with ⟨r1, h1, d1⟩ | later
    · rcases h.running e r1 h1 with ⟨r0, h0, d0⟩ | later
      · exact .inl ⟨r0, h0, d0.trans d1⟩
      · exact .inr (d1 ▸ later)
    · exact .inr (h.periodStart ▸ later)
  encodes ch := (k.encodes ch).trans (h.encodes ch)
  holds j hj x := h.holds j hj (k.holds j hj x)
  samples := k.samples ∘ h.samples

theorem Quiet.trans {s t u : State} (h : Quiet s t) (k : Quiet t u) : Quiet s u :=
  { h.toCalm.trans k.toCalm with noWait := k.noWait ∘ h.noWait }

theorem calm_foldl {α : Type} {f : State → α → State} (hf : ∀ s a, Calm s (f s a)) (xs : List α) (s : State) :
    Calm s (xs.foldl f s) :=
  List.foldlRecOn xs f (motive := fun t => Calm s t) (.refl s) fun t h a _ => h.trans (hf t a)

theorem quiet_foldl {α : Type} {f : State → α → State} (hf : ∀ s a, Quiet s (f s a)) (xs : List α) (s : State) :
    Quiet s (xs.foldl f s) :=
  List.foldlRecOn xs f (motive := fun t => Quiet s t) (.refl s) fun t h a _ => h.trans (hf t a)

theorem quiet_forEachOpen {f : Chan → State → State} (hf : ∀ ch s, Quiet s (f ch s)) (s : State) :
    Quiet s (s.forEachOpen f) := quiet_foldl (fun t ch => hf ch t) _ s

/-! ## What calm changes keep -/

namespace Calm
variable {s t : State}

theorem free (h : Calm s t) {ch : Chan} (k : s.chan[ch] = none) : t.chan[ch] = none := by
  have rel := h.chan ch
  rw [k] at rel
  cases hc : t.chan[ch] with
  | none => rfl
  | some c => rw [hc] at rel; cases rel

theorem open_ (h : Calm s t) {ch : Chan} {c : Context} (k : s.chan[ch] = some c) :
    ∃ d, t.chan[ch] = some d ∧ c.Calm d := by
  have rel := h.chan ch
  rw [k] at rel
  cases hc : t.chan[ch] with
  | none => rw [hc] at rel; cases rel
  | some d =>
    rw [hc] at rel
    cases rel with
    | some calm => exact ⟨d, rfl, calm⟩

theorem before (h : Calm s t) {ch : Chan} {d : Context} (k : t.chan[ch] = some d) :
    ∃ c, s.chan[ch] = some c ∧ c.Calm d := by
  cases hc : s.chan[ch] with
  | none => rw [h.free hc] at k; cases k
  | some c =>
    obtain ⟨d', hd', calm⟩ := h.open_ hc
    rw [hd'] at k
    cases k
    exact ⟨c, rfl, calm⟩

theorem maps (h : Calm s t) (k : MapsInv s) : MapsInv t := by
  have same : ∀ (ch : Chan) (p : Tag → HighwayNo → Timeslot → Prop),
      (∃ c, t.chan[ch] = some c ∧ p c.tag c.highway c.timeslot) ↔
        ∃ c, s.chan[ch] = some c ∧ p c.tag c.highway c.timeslot := by
    intro ch p
    constructor
    · rintro ⟨d, hd, x⟩
      obtain ⟨c, hc, calm⟩ := h.before hd
      exact ⟨c, hc, by rwa [← calm.tag, ← calm.highway, ← calm.timeslot]⟩
    · rintro ⟨c, hc, x⟩
      obtain ⟨d, hd, calm⟩ := h.open_ hc
      exact ⟨d, hd, by rwa [calm.tag, calm.highway, calm.timeslot]⟩
  obtain ⟨tags, slots⟩ := k
  refine ⟨fun g ch => ?_, fun n ch => ?_⟩
  · rw [h.tagMap, tags]
    exact (same ch fun tag _ _ => tag = g).symm
  · rw [h.bindings, slots]
    exact (same ch fun _ hw ts => slotNo hw ts = n).symm

theorem modes (h : Calm s t) (k : ModeInv s) : ModeInv t := by
  obtain ⟨setup, drain, held, closing⟩ := k
  refine ⟨fun m ch => h.free (setup (h.mode ▸ m) ch), fun m => ?_, fun g ch hp => ?_, fun ch d hd hs => ?_⟩
  · obtain ⟨ch, hc⟩ := drain (h.mode ▸ m)
    obtain ⟨c, hc⟩ := Option.ne_none_iff_exists'.mp hc
    obtain ⟨d, hd, _⟩ := h.open_ hc
    exact ⟨ch, by rw [hd]; simp⟩
  · obtain ⟨c, hc, hs⟩ := held g ch (h.proc ▸ hp)
    obtain ⟨d, hd, calm⟩ := h.open_ hc
    exact ⟨d, hd, calm.closing.mpr hs⟩
  · obtain ⟨c, hc, calm⟩ := h.before hd
    rw [h.proc]
    exact closing ch c hc (calm.closing.mp hs)

theorem bucketsInv (h : Calm s t) (k : BucketsInv s) : BucketsInv t := by
  intro b
  have shares : ∀ ch : Chan, bucketShare b t.chan[ch] = bucketShare b s.chan[ch] := by
    intro ch
    cases hc : s.chan[ch] with
    | none => rw [h.free hc]
    | some c =>
      obtain ⟨d, hd, calm⟩ := h.open_ hc
      rw [hd, bucketShare, bucketShare, calm.phiDn, calm.phiUp]
  rw [h.buckets, k b]
  simp only [shares]

theorem playout (h : Calm s t) (k : PlayoutInv s) : PlayoutInv t := fun ch d hd => by
  obtain ⟨c, hc, calm⟩ := h.before hd
  exact calm.playout (k ch c hc)

theorem timely (h : Calm s t) (k : s.eng.Timely s.hw.periodStart) : t.eng.Timely t.hw.periodStart := by
  rw [h.periodStart]
  refine ⟨fun j hj => (h.waiting j hj).elim (k.1 j) le_of_lt, fun e r hr => ?_⟩
  rcases h.running e r hr with ⟨r0, h0, d0⟩ | later
  · exact d0 ▸ k.2 e r0 h0
  · omega

theorem faults (h : Calm s t) (k : FaultsInv s) : FaultsInv t := fun ch d hd => by
  obtain ⟨c, hc, calm⟩ := h.before hd
  exact calm.faults (k ch c hc)

end Calm

theorem Quiet.engines {s t : State} (h : Quiet s t) (k : EnginesInv s) : EnginesInv t := by
  rw [enginesInv_iff] at *
  obtain ⟨expected, ordered, noWait⟩ := k
  exact ⟨h.expected expected, h.periodStart ▸ h.ordered ordered, h.noWait noWait⟩

/-! ## One context changed -/

section context
variable {ch : Chan} {c d : Context} {s : State}

/-- The samples a context takes over may be those of a job. -/
theorem quiet_setCtx_of_samples (h : s.chan[ch] = some c) (calm : c.Calm d)
    (samples : s.eng.SamplesSound → c.SamplesSound → d.SamplesSound) : Quiet s (s.setCtx ch d) where
  chan e := by
    by_cases he : e = ch
    · subst he
      rw [h, setCtx_chan_self]
      exact .some calm
    · rw [setCtx_chan_other ch d s he]
      exact rel_calm_refl _
  samples k := by
    refine ⟨fun e x hx => ?_, k.2⟩
    by_cases he : e = ch
    · subst he
      rw [setCtx_chan_self] at hx
      cases hx
      exact samples k.2 (k.1 e c h)
    · rw [setCtx_chan_other ch d s he] at hx
      exact k.1 e x hx

theorem quiet_setCtx (h : s.chan[ch] = some c) (calm : c.Calm d) (samples : c.SamplesSound → d.SamplesSound) :
    Quiet s (s.setCtx ch d) := quiet_setCtx_of_samples h calm fun _ => samples

theorem quiet_modCtx {f : Context → Context}
    (h : ∀ c, s.chan[ch] = some c → c.Calm (f c) ∧ (c.SamplesSound → (f c).SamplesSound)) : Quiet s (s.modCtx ch f) := by
  cases hc : s.chan[ch] with
  | none => rw [modCtx_of_none ch f s hc]; exact .refl s
  | some c =>
    rw [modCtx_eq ch c s f hc]
    exact quiet_setCtx hc (h c hc).1 (h c hc).2

/-- A change of fields that no invariant of a context reads. -/
theorem quiet_modCtx_of_id {f : Context → Context} (calm : ∀ c : Context, c.Calm (f c))
    (samples : ∀ c : Context, c.SamplesSound → (f c).SamplesSound) : Quiet s (s.modCtx ch f) :=
  quiet_modCtx fun c _ => ⟨calm c, samples c⟩

end context

/-! ## Notices and records -/

theorem quiet_notifyAll (bs : List NoticeBody) (s : State) : Quiet s (s.notifyAll bs) := by
  rw [notifyAll_eq]
  exact
    { chan := fun _ => rel_calm_refl _
      proc := tell_proc _ _ _ _
      answer := fun h => (tell_answer _ _ _ _).trans h
      control := fun h => by
        rw [controlInv_iff] at *
        exact ⟨h.1.tell h.2.1 _ bs, h.2.1, h.2.2⟩ }

theorem quiet_notify (b : NoticeBody) (s : State) : Quiet s (s.notify b) := quiet_notifyAll [b] s

theorem quiet_history (h : List HistoryRecord) (s : State) (bound : s.history.length ≤ 32 → h.length ≤ 32) :
    Quiet s { s with history := h } where
  chan _ := rel_calm_refl _
  control k := by
    rw [controlInv_iff] at *
    exact ⟨k.1, k.2.1, bound k.2.2⟩

theorem quiet_reported (rs : List FaultReport) (s : State) : Quiet s (s.reported rs) := by
  have told := quiet_notifyAll (rs.map FaultReport.notice) s
  have kept := quiet_history (s.historyAfter rs) (s.notifyAll (rs.map FaultReport.notice)) fun h => by
    rw [notifyAll_eq] at h
    exact length_historyAfter_le rs h
  have both := told.trans kept
  rw [notifyAll_eq] at both
  exact both

/-! ## Jobs leave -/

/-- Jobs leave or are marked, the buckets standing. -/
theorem calm_less {eng : EngineBlock} (s : State) (h : s.eng.Less eng) (buckets : eng.buckets = s.eng.buckets) :
    Calm s { s with eng := eng } where
  chan _ := rel_calm_refl _
  buckets := buckets
  ordered := h.ordered
  waiting j hj := .inl (h.queue.subset hj)
  running e r hr :=
    have ⟨r0, h0, _, _, done, _⟩ := h.engine e r hr
    .inl ⟨r0, h0, done.symm⟩
  encodes ch := h.held _
  holds _ _ := h.holds
  samples k := ⟨k.1, h.samples k.2⟩

/-- Jobs leave the queue, and every busy engine stays busy. -/
theorem quiet_less {eng : EngineBlock} (s : State) (h : s.eng.Less eng) (buckets : eng.buckets = s.eng.buckets)
    (busy : ∀ e : EngineNo, (s.eng.engines[e]).isSome → (eng.engines[e]).isSome) : Quiet s { s with eng := eng } :=
  { calm_less s h buckets with
    noWait := fun k some e => busy e (k (fun none => some (List.sublist_nil.mp (none ▸ h.queue))) e) }

theorem quiet_faultFrames (v : Vector Nat 256) (s : State) : Quiet s { s with faultFrames := v } where
  chan _ := rel_calm_refl _

theorem dropChannel_engine (ch : Chan) (eng : EngineBlock) (e : EngineNo) : (eng.dropChannel ch).engines[e] =
    (eng.engines[e]).map fun r => if r.job.chan = ch then { r with marked := true } else r := by
  simp [EngineBlock.dropChannel]

theorem quiet_dropChannel (ch : Chan) (s : State) : Quiet s { s with eng := s.eng.dropChannel ch } :=
  quiet_less s (.dropChannel ch s.eng) rfl fun e h => by rw [dropChannel_engine, Option.isSome_map]; exact h

theorem quiet_dropJobs (ch : Chan) (s : State) : Quiet s (s.dropJobs ch) :=
  (quiet_dropChannel ch s).trans (quiet_faultFrames _ _)

theorem quiet_queue {q : List Job} (s : State) (h : q.Sublist s.eng.queue) :
    Quiet s { s with eng := { s.eng with queue := q } } :=
  quiet_less s (.sublist h) rfl fun _ => id

theorem quiet_removeWaiting (ch : Chan) (kind : JobKind) (s : State) :
    Quiet s { s with eng := s.eng.removeWaiting ch kind } := quiet_queue s List.filter_sublist

theorem quiet_load (l : LoadMonitor) (s : State) : Quiet s { s with eng := { s.eng with load := l } } :=
  quiet_less s (.of_same rfl rfl) rfl fun _ => id

/-! ## The link port -/

theorem quiet_link {lp : LinkPort} (s : State) (h : s.link.Sound → lp.Sound) : Quiet s { s with link := lp } where
  chan _ := rel_calm_refl _
  egress := h

/-! ## Events raised and taken -/

theorem quiet_due {d : List Due} (s : State) (h : ∀ ch : Chan, .uplink ch ∈ d ↔ .uplink ch ∈ s.due) :
    Quiet s { s with due := d } where
  chan _ := rel_calm_refl _
  uplink := h

theorem quiet_rest (r : List Rest) (s : State) : Quiet s { s with rest := r } where
  chan _ := rel_calm_refl _

end Sys2Proof.Machine
end

section
/-! PROOF. Supervision is calm (R146 to R158): the fault records stay sound through findings, absences, expiries, CLEAR
FAULTS and recoveries, and a channel is FAULTED exactly while a kind holds it. -/

namespace Sys2Proof.Machine

/-! ## Sound fault records -/

theorem heldByFault_iff (c : Context) : c.heldByFault = true ↔ ∃ k, (c.fault k).holds = true := by
  simp only [Context.heldByFault, List.any_eq_true]
  exact ⟨fun ⟨k, _, h⟩ => ⟨k, h⟩, fun ⟨k, h⟩ => ⟨k, mem_allKinds k, h⟩⟩

theorem heldByFault_eq_false_iff (c : Context) : c.heldByFault = false ↔ ∀ k, (c.fault k).holds = false := by
  rw [← Bool.not_eq_true, heldByFault_iff]
  simp

/-- A record that holds its channel as before leaves the channel's soundness as it was. -/
theorem faultsSound_setFault {c : Context} {k : FaultKind} {r : FaultRecord} (h : c.FaultsSound) (sound : r.Sound)
    (holds : r.holds = (c.fault k).holds) : (c.setFault k r).FaultsSound := by
  obtain ⟨records, faulted, serving⟩ := h
  have same : ∀ j, ((c.setFault k r).fault j).holds = (c.fault j).holds := fun j => by
    rw [fault_setFault]
    split
    · next e => rw [e, holds]
    · rfl
  have held : (c.setFault k r).heldByFault = c.heldByFault := by
    rw [Bool.eq_iff_iff, heldByFault_iff, heldByFault_iff]
    simp only [same]
  refine ⟨fun j => ?_, fun hs => held.trans (faulted hs), fun hs => held.trans (serving hs)⟩
  rw [fault_setFault]
  split
  · exact sound
  · exact records j

theorem sound_seen {r : FaultRecord} (h : r.Sound) : r.seen.Sound := h

theorem sound_recognised {r : FaultRecord} (h : r.Sound) (none : r.state = .none) (cls : FaultClass) (time limit : Nat) :
    (r.seen.recognised cls time limit).Sound := by
  have counts : r.captured = .none ∧ r.retryCount = 0 := by
    unfold FaultRecord.Sound at h
    rwa [none] at h
  cases cls with
  | off => exact h
  | report => exact ⟨rfl, counts.2⟩
  | retry => exact ⟨limit, rfl, id⟩
  | latched => exact .inl rfl

theorem holds_of_none {r : FaultRecord} (h : r.state = .none) : r.holds = false := by
  unfold FaultRecord.holds
  rw [h]

/-- A record that holds makes a sound FAULTED channel of one whose other records are sound. -/
theorem faultsSound_of_holding {c : Context} {k : FaultKind} (records : ∀ j, (c.fault j).Sound)
    (faulted : c.state = .faulted) (holds : (c.fault k).holds = true) : c.FaultsSound :=
  ⟨records, fun _ => (heldByFault_iff c).mpr ⟨k, holds⟩, by simp [faulted]⟩

theorem faultsSound_found {c : Context} (h : c.FaultsSound) (cls : FaultClass) (time limit : Nat) (k : FaultKind) :
    (c.found cls time limit k).FaultsSound := by
  by_cases hc : c.state = .closing
  · rw [found_of_closing hc]; exact h
  by_cases hn : (c.fault k).state = .none
  · rw [found_of_none hc hn]
    have sound := sound_recognised (h.1 k) hn cls time limit
    have records : ∀ j, ((c.setFault k ((c.fault k).seen.recognised cls time limit)).fault j).Sound := fun j => by
      rw [fault_setFault]
      split
      · exact sound
      · exact h.1 j
    have holding : cls = .retry ∨ cls = .latched → ((c.fault k).seen.recognised cls time limit).holds = true := by
      rintro (rfl | rfl) <;> rfl
    cases hf : c.fallsBy cls k with
    | true =>
      have class_ : cls = .retry ∨ cls = .latched := by
        simp only [Context.fallsBy, Bool.and_eq_true, Bool.or_eq_true, decide_eq_true_eq] at hf
        exact hf.2
      refine faultsSound_of_holding (k := k) records rfl ?_
      exact (congrArg FaultRecord.holds (fault_setFault_self c k _)).trans (holding class_)
    | false =>
      have free := holds_of_none hn
      cases cls with
      | off => exact faultsSound_setFault h sound (by rw [free]; exact holds_of_none hn)
      | report => exact faultsSound_setFault h sound (by rw [free]; rfl)
      | retry | latched =>
        have faulted : c.state = .faulted := by
          cases hs : c.state with
          | faulted => rfl
          | closing => exact absurd hs hc
          | aligning | active => simp [Context.fallsBy, hs, hn] at hf
        exact faultsSound_of_holding (k := k) records faulted
          ((congrArg FaultRecord.holds (fault_setFault_self c k _)).trans (holding (by simp)))
  · rw [found_of_known hc hn]
    exact faultsSound_setFault h (sound_seen (h.1 k)) rfl

theorem faultsSound_absent {c : Context} (h : c.FaultsSound) (k : FaultKind) : (c.absent k).FaultsSound := by
  unfold Context.absent
  split
  · exact h
  · exact faultsSound_setFault h (h.1 k) rfl

/-! ## Expiry, clearing and recovery -/

theorem sound_dismissed (r : FaultRecord) : r.dismissed.Sound := ⟨rfl, rfl⟩

theorem sound_retried {r : FaultRecord} (h : r.Sound) (retrying : r.state = .retrying) (time : Nat) :
    (r.retried time).Sound := by
  unfold FaultRecord.Sound at h
  simp only [retrying] at h
  obtain ⟨limit, captured, below⟩ := h
  unfold FaultRecord.retried
  split
  · unfold FaultRecord.afterFailedRetry
    simp only [captured, Captured.limit]
    split
    · exact .inr ⟨limit, rfl⟩
    · next stays =>
      have stays : ¬ (0 < limit ∧ limit ≤ upTo 15 r.retryCount) := by simpa using stays
      simp only [FaultRecord.Sound, retrying]
      exact ⟨limit, rfl, fun pos => by omega⟩
  · exact sound_dismissed r

theorem sound_clearedIfAbsent {r : FaultRecord} (h : r.Sound) : r.clearedIfAbsent.Sound := by
  unfold FaultRecord.clearedIfAbsent
  split
  · exact sound_dismissed r
  · exact h

@[simp] theorem recovered_fault (c : Context) (k : FaultKind) : c.recovered.fault k = c.fault k := rfl
@[simp] theorem recovered_heldByFault (c : Context) : c.recovered.heldByFault = c.heldByFault := rfl

theorem recovers_iff (c : Context) : c.recovers = true ↔ c.state = .faulted ∧ c.heldByFault = false := by
  simp [Context.recovers]

/-- With its records sound, a channel recovers exactly where it must, and is sound then. -/
theorem faultsSound_recoveredIfClear {c : Context} (records : ∀ k, (c.fault k).Sound)
    (serving : c.state = .aligning ∨ c.state = .active → c.heldByFault = false) : c.recoveredIfClear.FaultsSound := by
  unfold Context.recoveredIfClear
  split
  · next hr =>
    obtain ⟨_, free⟩ := (recovers_iff c).mp hr
    refine ⟨records, fun hs => ?_, fun _ => free⟩
    have : c.recovered.state = if c.started then .active else .aligning := rfl
    rw [this] at hs
    split at hs <;> cases hs
  · next hr =>
    refine ⟨records, fun hs => ?_, serving⟩
    by_contra free
    exact hr ((recovers_iff c).mpr ⟨hs, by simpa using free⟩)

theorem mem_expiredKinds (c : Context) (k : FaultKind) :
    k ∈ c.expiredKinds ↔ (c.fault k).state = .retrying ∧ (c.fault k).remaining = 0 := by
  simp [Context.expiredKinds, mem_allKinds]

theorem expiredKinds_of_free {c : Context} (free : c.heldByFault = false) : c.expiredKinds = [] := by
  refine List.eq_nil_iff_forall_not_mem.mpr fun k hk => ?_
  have retrying := ((mem_expiredKinds c k).mp hk).1
  have := (heldByFault_eq_false_iff c).mp free k
  simp [FaultRecord.holds, retrying] at this

theorem fault_expiredIn (s : State) (c : Context) (k : FaultKind) : (s.expiredIn c).fault k =
    if k ∈ c.expiredKinds then (c.fault k).retried (s.profileOf c).retryTime[k.index] else c.fault k :=
  fault_tended _ c (nodup_filter_allKinds _) k

theorem fault_clearedAbsent (c : Context) (k : FaultKind) : c.clearedAbsent.fault k = (c.fault k).clearedIfAbsent := by
  have once : allKinds.Nodup := by decide
  exact (fault_tended _ c once k).trans (if_pos (mem_allKinds k))

theorem faultsSound_expired (s : State) {c : Context} (h : c.FaultsSound) :
    (s.expiredIn c).recoveredIfClear.FaultsSound := by
  obtain ⟨records, _, serving⟩ := h
  refine faultsSound_recoveredIfClear (fun k => ?_) fun hs => ?_
  · rw [fault_expiredIn]
    split
    · next hk => exact sound_retried (records k) ((mem_expiredKinds c k).mp hk).1 _
    · exact records k
  · have free := serving ((tended_state _ _ _).symm ▸ hs)
    have same : s.expiredIn c = c := by
      unfold State.expiredIn
      rw [expiredKinds_of_free free, tended_nil]
    rw [same, free]

theorem holds_clearedIfAbsent {r : FaultRecord} (h : r.holds = false) : r.clearedIfAbsent.holds = false := by
  unfold FaultRecord.clearedIfAbsent
  split
  · rfl
  · exact h

theorem faultsSound_cleared {c : Context} (h : c.FaultsSound) : c.clearedAbsent.recoveredIfClear.FaultsSound := by
  obtain ⟨records, _, serving⟩ := h
  refine faultsSound_recoveredIfClear (fun k => ?_) fun hs => ?_
  · rw [fault_clearedAbsent]
    exact sound_clearedIfAbsent (records k)
  · have free := serving ((tended_state _ _ _).symm ▸ hs)
    rw [heldByFault_eq_false_iff] at free ⊢
    intro k
    rw [fault_clearedAbsent]
    exact holds_clearedIfAbsent (free k)

/-! ## Contexts -/

theorem calm_setFault {c : Context} {k : FaultKind} {r : FaultRecord} (h : c.FaultsSound → (c.setFault k r).FaultsSound) :
    c.Calm (c.setFault k r) := { faults := h }

theorem withdraw_samples (o : BoundaryOutcome) : o.withdraw.samples = [] := by
  cases o with
  | decode m => cases m <;> rfl
  | sid | noData | missing | endFrame | none => rfl

theorem withdraw_not_ready (o : BoundaryOutcome) (b : List Int) : o.withdraw ≠ .decode (.ready b) := by
  cases o with
  | decode m => cases m <;> simp [BoundaryOutcome.withdraw]
  | sid | noData | missing | endFrame | none => simp [BoundaryOutcome.withdraw]

/-- A context stays sound in its samples with an outcome that holds no block. -/
theorem samplesSound_outcome {c : Context} (h : c.SamplesSound) {o : BoundaryOutcome} (empty : o.samples = [])
    (notReady : ∀ b, o ≠ .decode (.ready b)) : ({ c with outcome := o } : Context).SamplesSound := by
  obtain ⟨ring, size, encY, decY, good, goodSize, block, blockSize, _, _, level, gen⟩ := h
  exact ⟨ring, size, encY, decY, good, goodSize, block, blockSize, by simp [empty], fun b hb => absurd hb (notReady b),
    level, gen⟩

theorem isSample_zero : IsSample 0 := by constructor <;> decide

theorem calm_found (cls : FaultClass) (time limit : Nat) (k : FaultKind) (c : Context) :
    c.Calm (c.found cls time limit k) ∧ (c.SamplesSound → (c.found cls time limit k).SamplesSound) := by
  have faults := fun h : c.FaultsSound => faultsSound_found h cls time limit k
  by_cases hc : c.state = .closing
  · rw [found_of_closing hc]; exact ⟨.refl c, id⟩
  by_cases hn : (c.fault k).state = .none
  · rw [found_of_none hc hn] at faults ⊢
    cases hf : c.fallsBy cls k with
    | true =>
      rw [hf] at faults
      exact ⟨{ faults := faults, closing := by simp [Context.fallen, hc] }, fun h =>
        samplesSound_outcome (c := { c.setFault k _ with state := .faulted }) h (withdraw_samples _) (withdraw_not_ready _)⟩
    | false =>
      rw [hf] at faults
      exact ⟨{ faults := faults }, id⟩
  · rw [found_of_known hc hn] at faults ⊢
    exact ⟨{ faults := faults }, id⟩

theorem calm_absent (k : FaultKind) (c : Context) :
    c.Calm (c.absent k) ∧ (c.SamplesSound → (c.absent k).SamplesSound) := by
  have faults := fun h : c.FaultsSound => faultsSound_absent h k
  unfold Context.absent at *
  split
  · exact ⟨.refl c, id⟩
  · next hc =>
    rw [if_neg hc] at faults
    exact ⟨{ faults := faults }, id⟩

/-- What a recovery made of records already acted on changes beside them. -/
theorem calm_recoveredIfClear {c d : Context} (touches : d = { c with faults := d.faults })
    (faults : c.FaultsSound → d.recoveredIfClear.FaultsSound) :
    c.Calm d.recoveredIfClear ∧ (c.SamplesSound → d.recoveredIfClear.SamplesSound) := by
  have state : d.state = c.state := by rw [touches]
  unfold Context.recoveredIfClear at *
  split
  · next hr =>
    rw [if_pos hr] at faults
    obtain ⟨faulted, _⟩ := (recovers_iff d).mp hr
    rw [touches] at faults ⊢
    refine ⟨{ faults := faults, closing := ?_ }, fun h => ?_⟩
    · rw [state] at faulted
      simp only [Context.recovered, faulted]
      split <;> simp
    · obtain ⟨ring, size, _, _, more⟩ := h
      exact ⟨ring, size, isSample_zero, isSample_zero, more⟩
  · next hr =>
    rw [if_neg hr] at faults
    rw [touches] at faults ⊢
    exact ⟨{ faults := faults }, id⟩

/-! ## The operations -/

theorem quiet_findPresent (ch : Chan) (k : FaultKind) (s : State) : Quiet s (s.findPresent ch k) := by
  cases h : s.chan[ch] with
  | none => rw [findPresent_of_free ch k s h]; exact .refl s
  | some c =>
    rw [findPresent_eq ch k s h]
    have context := calm_found (s.profileOf c).cls[k.index] (s.profileOf c).retryTime[k.index]
      (s.profileOf c).retryLimit[k.index] k c
    have told := (quiet_reported (s.raisedBy k ch c) s).trans
      (quiet_setCtx (ch := ch) (d := s.foundIn k c) h context.1 context.2)
    dsimp only
    split
    · exact told.trans (quiet_dropJobs ch _)
    · exact told

theorem quiet_setAbsent (ch : Chan) (k : FaultKind) (s : State) : Quiet s (s.setAbsent ch k) :=
  quiet_modCtx_of_id (fun c => (calm_absent k c).1) fun c => (calm_absent k c).2

theorem quiet_judge (ch : Chan) (k : FaultKind) (present : Bool) (s : State) : Quiet s (s.judge ch k present) := by
  unfold State.judge
  split
  · exact quiet_findPresent ch k s
  · exact quiet_setAbsent ch k s

theorem quiet_retryExpiry (ch : Chan) (s : State) : Quiet s (s.retryExpiry ch) := by
  cases h : s.chan[ch] with
  | none => unfold State.retryExpiry; rw [h]; exact .refl s
  | some c =>
    rw [retryExpiry_eq ch s h]
    have context := calm_recoveredIfClear (c := c) (d := s.expiredIn c) (tended_touches _ _ _) (faultsSound_expired s)
    have told := (quiet_reported (s.expiryReportsOf ch c) s).trans
      (quiet_notifyAll (recoveryNotices ch (s.expiredIn c)) _)
    refine told.trans (quiet_setCtx ?_ context.1 context.2)
    rw [notifyAll_eq]
    exact h

theorem quiet_clearChannel (ch : Chan) (s : State) : Quiet s (s.clearChannel ch) := by
  cases h : s.chan[ch] with
  | none =>
    have each : ∀ k, State.clearIfAbsent ch s k = s := fun k => by unfold State.clearIfAbsent; rw [h]
    have none : allKinds.foldl (State.clearIfAbsent ch) s = s := by simp [allKinds, each]
    unfold State.clearChannel State.recoverIfClear
    rw [none, h]
    exact .refl s
  | some c =>
    rw [clearChannel_eq ch s h]
    have context := calm_recoveredIfClear (c := c) (d := c.clearedAbsent) (tended_touches _ _ _) faultsSound_cleared
    have told := (quiet_reported (c.clearingReports ch) s).trans (quiet_notifyAll (recoveryNotices ch c.clearedAbsent) _)
    refine told.trans (quiet_setCtx ?_ context.1 context.2)
    rw [notifyAll_eq]
    exact h

theorem quiet_supervisionWindowEnd (ch : Chan) (s : State) : Quiet s (s.supervisionWindowEnd ch) := by
  unfold State.supervisionWindowEnd
  cases s.chan[ch] with
  | none => exact .refl s
  | some c =>
    exact ((quiet_judge ch _ _ s).trans (quiet_judge ch _ _ _)).trans (quiet_modCtx_of_id (fun _ => {}) fun _ => id)

theorem quiet_raiseStarvation (ch : Chan) (s : State) : Quiet s (s.raiseStarvation ch) := by
  unfold State.raiseStarvation
  cases s.chan[ch] with
  | none => exact .refl s
  | some c =>
    refine Quiet.trans ?_ (quiet_judge ch _ _ _)
    exact quiet_modCtx_of_id (fun _ => {}) fun _ => id

/-! ## The end of an observation window -/

theorem quiet_profiles {ps : Vector Profile 16} (s : State)
    (h : ProfilesInv s → ProfilesInv { s with profiles := ps }) : Quiet s { s with profiles := ps } where
  chan _ := rel_calm_refl _
  profiles := h

/-- A marker is set on a profile other than P0, which holds the defaults (R164, R167). -/
theorem quiet_markDefaulted (ch : Chan) (p : ProfileNo) (s : State) (h : s.profiles[p] ≠ Profile.default) :
    Quiet s (s.markDefaulted ch p) := by
  unfold State.markDefaulted
  split
  · exact .refl s
  · refine Quiet.trans (quiet_profiles s fun k => ?_) (quiet_notify _ _)
    obtain ⟨zero, ranges⟩ := k
    refine ⟨?_, fun n => ?_⟩
    · have other : (0 : ProfileNo) ≠ p := by rintro rfl; exact h zero
      exact (set_getElem_fin_other _ _ _ _ other).trans zero
    · change Profile.InRange ((s.profiles.set p _)[n])
      rw [set_getElem_fin]
      split
      · exact ranges p
      · exact ranges n

theorem quiet_compareBand (ch : Chan) (s : State) : Quiet s (s.compareBand ch) := by
  unfold State.compareBand
  cases s.chan[ch] with
  | none => exact .refl s
  | some c =>
    dsimp only
    split
    · exact .refl s
    · have marked : Quiet s
          (if (s.profileOf c).marginLo < (s.profileOf c).marginHi then s else s.markDefaulted ch c.profile) := by
        split
        · exact .refl s
        · next bad => exact quiet_markDefaulted ch _ s fun same => bad (by rw [State.profileOf, same]; decide)
      split
      · exact marked
      · split
        · exact marked
        · exact marked.trans (quiet_modCtx_of_id (fun _ => {}) fun _ => id)

theorem quiet_observationWindowEnd (ch : Chan) (s : State) : Quiet s (s.observationWindowEnd ch) := by
  unfold State.observationWindowEnd
  cases s.chan[ch] with
  | none => exact .refl s
  | some c =>
    exact ((quiet_judge ch _ _ s).trans (quiet_compareBand ch _)).trans (quiet_modCtx_of_id (fun _ => {}) fun _ => id)

/-! ## The rest of an event -/

theorem quiet_takeRest (s : State) (r : Rest) : Quiet s (s.takeRest r) := by
  cases r with
  | supervisionWindow ch => exact quiet_supervisionWindowEnd ch s
  | retryExpiry ch => exact quiet_retryExpiry ch s
  | observationWindow ch => exact quiet_observationWindowEnd ch s

theorem quiet_finish (s : State) : Quiet s s.finish :=
  (quiet_rest [] s).trans (quiet_foldl quiet_takeRest s.rest _)

theorem quiet_takeRestUpTo (r : Rest) (s : State) : Quiet s (s.takeRestUpTo r) := by
  unfold State.takeRestUpTo
  split
  · exact (((quiet_rest [] s).trans (quiet_foldl quiet_takeRest _ _)).trans (quiet_takeRest _ r)).trans (quiet_rest _ _)
  · exact quiet_finish s

end Sys2Proof.Machine
end

section
/-! PROOF. The codec makes linear samples and blocks of 160 of them: reconstructions, comfort noise, concealed blocks and
gained samples (R46, R57, R64, R69 to R71). -/

namespace Sys2Proof.Machine

theorem isSample_clampSample (x : Int) : IsSample (clampSample x) := by
  unfold clampSample clamp IsSample
  split
  · omega
  · split <;> omega

theorem isSample_getLastD {xs : List Int} {d : Int} (h : ∀ x ∈ xs, IsSample x) (hd : IsSample d) :
    IsSample (xs.getLastD d) := by
  rcases List.mem_cons.mp (List.getLastD_mem_cons (l := xs) (a := d)) with e | e
  · rw [e]; exact hd
  · exact h _ e

/-! ## Decoding -/

theorem isSample_reconstruct (b q : Nat) (y : Int) (v : Nat) : IsSample (reconstruct b q y v) := isSample_clampSample _

theorem isSample_of_mem_decodeCodes {b q : Nat} {x : Int} : ∀ {codes : List Nat} {y : Int},
    x ∈ decodeCodes b q y codes → IsSample x
  | [], _, h => absurd h (by simp [decodeCodes])
  | v :: vs, y, h => by
    rcases List.mem_cons.mp h with rfl | h
    · exact isSample_reconstruct b q y v
    · exact isSample_of_mem_decodeCodes h

theorem isSample_of_mem_decodeSubframes {b : Nat} {x : Int} : ∀ {subs : List Subframe} {y : Int},
    x ∈ decodeSubframes b y subs → IsSample x
  | [], _, h => absurd h (by simp [decodeSubframes])
  | sf :: rest, y, h => by
    rcases List.mem_append.mp h with h | h
    · exact isSample_of_mem_decodeCodes h
    · exact isSample_of_mem_decodeSubframes h

theorem length_decodeCodes (b q : Nat) : ∀ (codes : List Nat) (y : Int), (decodeCodes b q y codes).length = codes.length
  | [], _ => rfl
  | v :: vs, y => by simp [decodeCodes, length_decodeCodes b q vs]

theorem length_takeNumbers (w : Nat) : ∀ (n : Nat) (bits : List Bool), (takeNumbers w n bits).length = n
  | 0, _ => rfl
  | n + 1, bits => by simp [takeNumbers, length_takeNumbers w n]

theorem length_decodeSubframes (b : Nat) : ∀ (subs : List Subframe) (y : Int), (∀ sf ∈ subs, sf.codes.length = 40) →
    (decodeSubframes b y subs).length = 40 * subs.length
  | [], _, _ => rfl
  | sf :: rest, y, h => by
    rw [decodeSubframes, List.length_append, length_decodeCodes, h sf List.mem_cons_self,
      length_decodeSubframes b rest _ fun x hx => h x (List.mem_cons_of_mem _ hx), List.length_cons]
    omega

theorem length_takeSubframes (r : Rate) : ∀ (n : Nat) (bits : List Bool), (takeSubframes r n bits).length = n
  | 0, _ => rfl
  | n + 1, bits => by simp [takeSubframes, length_takeSubframes r n]

theorem codes_of_mem_takeSubframes (r : Rate) {sf : Subframe} : ∀ {n : Nat} {bits : List Bool},
    sf ∈ takeSubframes r n bits → sf.codes.length = 40
  | 0, _, h => absurd h (by simp [takeSubframes])
  | n + 1, bits, h => by
    rcases List.mem_cons.mp h with rfl | h
    · exact length_takeNumbers _ _ _
    · exact codes_of_mem_takeSubframes r h

/-- A decoded block has 160 samples, whatever the payload (R64). -/
theorem length_decodeSpeech (r : Rate) (y : Int) (payload : List Byte) : (decodeSpeech r y payload).length = 160 := by
  unfold decodeSpeech unpackPayload
  rw [length_decodeSubframes _ _ _ fun sf h => codes_of_mem_takeSubframes r h, length_takeSubframes]

theorem isSample_of_mem_decodeSpeech {r : Rate} {y x : Int} {payload : List Byte} (h : x ∈ decodeSpeech r y payload) :
    IsSample x := isSample_of_mem_decodeSubframes h

/-! ## Encoding -/

theorem isSample_quantiseAll (b q : Nat) : ∀ (xs : List Int) (y : Int), IsSample y → IsSample (quantiseAll b q y xs).2
  | [], _, h => h
  | _ :: xs, y, _ => isSample_quantiseAll b q xs _ (isSample_reconstruct b q y _)

theorem isSample_encodeSubframes (b : Nat) : ∀ (n : Nat) (before y : Int) (xs : List Int), IsSample y →
    IsSample (encodeSubframes b n before y xs).2
  | 0, _, _, _, h => h
  | n + 1, _, _, _, h => isSample_encodeSubframes b n _ _ _ (isSample_quantiseAll b _ _ _ h)

/-- The encoder y_prev an ENCODE job hands over is a linear sample (R57, R63). -/
theorem isSample_encodeJob (r : Rate) (input : List Int) {rd : CodecRead} (h : IsSample rd.encY) :
    IsSample (encodeJob r input rd).encY := by
  unfold encodeJob
  dsimp only
  split
  · exact isSample_encodeSubframes _ _ _ _ _ h
  · exact isSample_zero
  · exact h
  · exact h

/-! ## Comfort noise -/

theorem noiseOutput_bounds (st : BitVec 16) : -2048 ≤ noiseOutput st ∧ noiseOutput st ≤ 2047 := by
  unfold noiseOutput
  omega

theorem length_noiseSamples (a : Nat) : ∀ (n : Nat) (st : BitVec 16), (noiseSamples a n st).length = n
  | 0, _ => rfl
  | n + 1, st => by simp [noiseSamples, length_noiseSamples a n]

theorem isSample_of_mem_noiseSamples {a : Nat} (ha : a ≤ 4064) {x : Int} : ∀ {n : Nat} {st : BitVec 16},
    x ∈ noiseSamples a n st → IsSample x
  | 0, _, h => absurd h (by simp [noiseSamples])
  | n + 1, st, h => by
    rcases List.mem_cons.mp h with rfl | h
    · obtain ⟨low, high⟩ := noiseOutput_bounds (noiseNext st)
      have lo : -2048 * 4064 ≤ noiseOutput (noiseNext st) * a := by nlinarith
      have hi : noiseOutput (noiseNext st) * a ≤ 2048 * 4064 := by nlinarith
      constructor <;> omega
    · exact isSample_of_mem_noiseSamples ha h

/-- The noise generator never comes to 0 (R69). -/
theorem noiseNext_ne_zero {st : BitVec 16} (h : st ≠ 0) : noiseNext st ≠ 0 := by
  unfold noiseNext
  split
  · intro zero
    have top := congrArg (·.getLsbD 15) zero
    simp at top
  · next even =>
    intro zero
    have half := congrArg BitVec.toNat zero
    rw [BitVec.toNat_ushiftRight, Nat.shiftRight_eq_div_pow] at half
    have low : st.toNat % 2 = 0 := by
      have := even
      rw [BitVec.getLsbD, Nat.testBit_zero] at this
      simpa using this
    refine h (BitVec.eq_of_toNat_eq ?_)
    simp at half ⊢
    omega

theorem noiseAfter_ne_zero : ∀ (n : Nat) {st : BitVec 16}, st ≠ 0 → noiseAfter n st ≠ 0
  | 0, _, h => h
  | n + 1, _, h => noiseAfter_ne_zero n (noiseNext_ne_zero h)

/-! ## Concealment and gain -/

theorem concealFactor_le (n : Nat) : concealFactors.getD n 9 ≤ 768 := by
  rcases Nat.lt_or_ge n 16 with h | h
  · interval_cases n <;> decide
  · rw [List.getD_eq_default _ _ (by simpa [concealFactors] using h)]
    decide

theorem isSample_of_mem_concealedBlock {j : Nat} {good : List Int} (h : ∀ x ∈ good, IsSample x) {x : Int}
    (hx : x ∈ concealedBlock j good) : IsSample x := by
  obtain ⟨g, hg, rfl⟩ := List.mem_map.mp hx
  obtain ⟨low, high⟩ := h g hg
  have bound := concealFactor_le (j - 1)
  generalize concealFactors.getD (j - 1) 9 = f at bound
  have lo : -32768 * 768 ≤ g * (f : Int) := by nlinarith
  have hi : g * (f : Int) ≤ 32767 * 768 := by nlinarith
  constructor <;> omega

theorem length_concealedBlock (j : Nat) (good : List Int) : (concealedBlock j good).length = good.length :=
  List.length_map _

theorem isSample_gainSample (g x : Int) : IsSample (gainSample g x) := isSample_clampSample _

end Sys2Proof.Machine
end

section
/-! PROOF. Placements, misses, dispatch, downlink boundaries, output block starts and completions are calm (R36, R89 to R94,
R119 to R127, R140 to R143), and dispatch leaves no job waiting beside an idle engine. -/

namespace Sys2Proof.Machine

/-! ## Placements and misses -/

theorem quiet_placeFrame (ch : Chan) (kind : FrameKind) (rate : Option Rate) (payload : List Byte) (s : State) :
    Quiet s (s.placeFrame ch kind rate payload) := by
  cases h : s.chan[ch] with
  | none => unfold State.placeFrame; rw [h]; exact .refl s
  | some c =>
    rw [placeFrame_eq ch kind rate payload s h]
    have counted : Quiet s (s.setCtx ch (c.afterPlacement (s.link.overruns ch))) := quiet_setCtx h {} id
    have placed := counted.trans
      (quiet_link (lp := s.link.place ch (s.fillFrame c kind rate payload)) _ fun k => k.place ch _)
    dsimp only
    split
    · exact placed.trans (quiet_findPresent ch .drift _)
    · exact placed

theorem quiet_loadMiss (s : State) : Quiet s s.loadMiss := by
  unfold State.loadMiss
  dsimp only
  split
  · exact (quiet_load _ s).trans (quiet_notify _ _)
  · exact quiet_load _ s

theorem quiet_countMiss (ch : Chan) (kind : JobKind) (s : State) : Quiet s (s.countMiss ch kind) := by
  refine Quiet.trans ?_ (quiet_loadMiss _)
  exact quiet_modCtx_of_id (fun _ => {}) fun _ => id

theorem miss_samples {o : BoundaryOutcome} {x : Int} (h : x ∈ o.miss.samples) : x ∈ o.samples := by
  cases o with
  | decode m => cases m <;> exact h
  | sid | noData | missing | endFrame | none => exact h

theorem miss_ready {o : BoundaryOutcome} {b : List Int} (h : o.miss = .decode (.ready b)) : o = .decode (.ready b) := by
  cases o with
  | decode m => cases m <;> simp_all [BoundaryOutcome.miss]
  | sid | noData | missing | endFrame | none => cases h

theorem samplesSound_miss {c : Context} (h : c.SamplesSound) :
    ({ c with outcome := c.outcome.miss } : Context).SamplesSound := by
  obtain ⟨ring, size, encY, decY, good, goodSize, block, blockSize, ready, readySize, level, gen⟩ := h
  exact ⟨ring, size, encY, decY, good, goodSize, block, blockSize, fun x hx => ready x (miss_samples hx),
    fun b hb => readySize b (miss_ready hb), level, gen⟩

theorem quiet_missJob (ch : Chan) (kind : JobKind) (s : State) : Quiet s (s.missJob ch kind) := by
  cases kind with
  | encode => exact (quiet_placeFrame ch .noData none [] s).trans (quiet_countMiss ch .encode _)
  | decode =>
    refine Quiet.trans ?_ (quiet_countMiss ch .decode _)
    exact quiet_modCtx_of_id (fun _ => {}) fun _ => samplesSound_miss

/-! ## Dispatch -/

theorem isSample_codecRead {s : State} (h : SamplesInv s) (ch : Chan) :
    IsSample (s.codecRead ch).encY ∧ IsSample (s.codecRead ch).decY := by
  unfold State.codecRead
  split
  · next c hc =>
    obtain ⟨_, _, encY, decY, _⟩ := h.1 ch c hc
    exact ⟨encY, decY⟩
  · exact ⟨isSample_zero, isSample_zero⟩

/-- The head of the queue started by an idle engine, at an instant of the period in progress or later. -/
theorem calm_starts {s : State} {e : EngineNo} {j : Job} {more : List Job} {now : Nat} (hq : s.eng.queue = j :: more)
    (idle : s.eng.engines[e] = none) (meets : now + j.durationNs ≤ j.deadline) (hnow : s.hw.periodStart ≤ now) :
    Calm s { s with eng := s.eng.starts e j more now (s.codecRead j.chan) } where
  chan _ := rel_calm_refl _
  ordered := ordered_starts hq idle meets
  waiting x hx := .inl (by rw [hq]; exact List.mem_cons_of_mem _ hx)
  running d r hr := by
    rcases running_starts hr with rfl | hr
    · exact .inr (hnow.trans (Nat.le_add_right _ _))
    · exact .inl ⟨r, hr, rfl⟩
  encodes ch := (held_starts hq idle _).le
  holds _ _ := holds_starts hq
  samples k :=
    have read := isSample_codecRead k j.chan
    ⟨k.1, samples_starts hq read.1 read.2 k.2⟩

theorem calm_dispatchLoop (now : Nat) : ∀ (n : Nat) (s : State), s.hw.periodStart ≤ now → Calm s (s.dispatchLoop now n)
  | 0, s, _ => .refl s
  | n + 1, s, hnow => by
    unfold State.dispatchLoop
    split
    · next j rest e hq he =>
      dsimp only
      split
      · next meets =>
        have start := calm_starts hq (idle_of_idleEngine he) meets hnow
        exact start.trans (calm_dispatchLoop now n _ hnow)
      · have popped : Quiet s { s with eng := { s.eng with queue := rest } } :=
          quiet_queue s (by rw [hq]; exact List.sublist_cons_self j rest)
        have missed := popped.trans (quiet_missJob j.chan j.kind _)
        exact missed.toCalm.trans (calm_dispatchLoop now n _ (missed.periodStart ▸ hnow))
    · exact .refl s

/-- Jobs only leave the queue where none comes to wait. -/
theorem queue_findPresent (ch : Chan) (k : FaultKind) (s : State) :
    (s.findPresent ch k).eng.queue.Sublist s.eng.queue := by
  cases h : s.chan[ch] with
  | none => rw [findPresent_of_free ch k s h]
  | some c =>
    rw [findPresent_eq ch k s h]
    dsimp only
    split
    · exact List.filter_sublist
    · exact .refl _

theorem queue_modCtx (ch : Chan) (f : Context → Context) (s : State) : (s.modCtx ch f).eng.queue = s.eng.queue := by
  simp

theorem queue_missJob (ch : Chan) (kind : JobKind) (s : State) :
    (s.missJob ch kind).eng.queue.Sublist s.eng.queue := by
  unfold State.missJob
  cases kind with
  | decode =>
    dsimp only
    rw [(countMiss_frame ch .decode _).2.2.2.1, queue_modCtx]
  | encode =>
    dsimp only
    rw [(countMiss_frame ch .encode _).2.2.2.1]
    cases h : s.chan[ch] with
    | none => unfold State.placeFrame; rw [h]
    | some c =>
      rw [placeFrame_eq ch .noData none [] s h]
      dsimp only
      split
      · exact queue_findPresent ch .drift _
      · exact .refl _

/-- With heads enough taken, dispatch ends with no engine idle or nothing waiting (R122). -/
theorem noWait_dispatchLoop (now : Nat) : ∀ (n : Nat) (s : State), s.eng.queue.length ≤ n →
    (s.dispatchLoop now n).eng.NoWait
  | 0, s, h => fun some => absurd (List.length_eq_zero_iff.mp (Nat.le_zero.mp h)) some
  | n + 1, s, h => by
    unfold State.dispatchLoop
    split
    · next j rest e hq he =>
      have shorter : rest.length ≤ n := by rw [hq, List.length_cons] at h; omega
      dsimp only
      split
      · exact noWait_dispatchLoop now n _ shorter
      · exact noWait_dispatchLoop now n _ ((queue_missJob j.chan j.kind _).length_le.trans shorter)
    · next stuck =>
      intro some e
      obtain ⟨j, rest, hq⟩ := List.exists_cons_of_ne_nil some
      cases hi : s.eng.idleEngine with
      | none => exact busy_of_idleEngine hi e
      | some d => exact absurd hi (stuck j rest d hq)

theorem calm_dispatch (now : Nat) (s : State) (h : s.hw.periodStart ≤ now) : Calm s (s.dispatch now) :=
  calm_dispatchLoop now _ s h

theorem noWait_dispatch (now : Nat) (s : State) : (s.dispatch now).eng.NoWait := noWait_dispatchLoop now _ s le_rfl

/-- A job of R117 comes to wait: one that is made with no other of its channel held, if it is a DECODE job. -/
theorem calm_joins_decode {s : State} {j : Job} (decode : j.kind = .decode)
    (raster : j.deadline % 125000 = s.hw.periodStart % 125000) (later : s.hw.periodStart < j.deadline)
    (alone : s.eng.holdsJob j.chan .decode = false) (linear : j.input.linear = []) :
    Calm s { s with eng := s.eng.joins j } where
  chan _ := rel_calm_refl _
  ordered := ordered_joins raster fun _ => held_eq_zero fun x hx => by
    refine Bool.eq_false_iff.mpr fun own => Bool.eq_false_iff.mp alone ?_
    simp only [Job.isDecodeOf, Bool.and_eq_true, decide_eq_true_eq] at own
    unfold EngineBlock.holdsJob
    rw [Bool.or_eq_true]
    rcases hx with hx | ⟨e, r, hr, rfl⟩
    · exact .inl (List.any_eq_true.mpr ⟨x, hx, by simpa using own⟩)
    · refine .inr (List.any_eq_true.mpr ⟨some r, ?_, by simpa using own⟩)
      rw [engines_toList, List.mem_map]
      exact ⟨e, List.mem_finRange e, hr⟩
  waiting x hx := ((mem_insertJob j x _).mp hx).elim (fun same => .inr (same ▸ later)) .inl
  encodes ch := by
    rw [held_joins]
    simp [Job.isEncodeOf, decode]
  holds x hx h := by
    rcases holds_joins.mp h with rfl | h
    · rw [decode] at hx; cases hx
    · exact h
  samples k := ⟨k.1, samples_joins (by simp [linear]) k.2⟩

theorem quiet_submit_decode {s : State} {j : Job} {now : Nat} (hnow : s.hw.periodStart ≤ now) (decode : j.kind = .decode)
    (raster : j.deadline % 125000 = s.hw.periodStart % 125000) (later : s.hw.periodStart < j.deadline)
    (alone : s.eng.holdsJob j.chan .decode = false) (linear : j.input.linear = []) : Quiet s (s.submit j now) :=
  { (calm_joins_decode decode raster later alone linear).trans (calm_dispatch now _ hnow) with
    noWait := fun _ => noWait_dispatch now _ }

/-! ## Deadlines -/

theorem quiet_takeDeadline (now : Nat) (ch : Chan) (kind : JobKind) (s : State) :
    Quiet s (s.takeDeadline now ch kind) := by
  unfold State.takeDeadline
  split
  · exact (quiet_removeWaiting ch kind s).trans (quiet_missJob ch kind _)
  · exact .refl s

theorem quiet_takeDeadlines (now : Nat) (s : State) : Quiet s (s.takeDeadlines now) :=
  quiet_foldl (f := fun t (j : Job) => t.takeDeadline now j.chan j.kind)
    (fun t j => quiet_takeDeadline now j.chan j.kind t) _ s

/-! ## Completions -/

theorem samplesSound_takeDecode {c : Context} {block : List Int} (linear : ∀ x ∈ block, IsSample x)
    (length : block.length = 160) (h : c.SamplesSound) : (c.takeDecode block).SamplesSound := by
  obtain ⟨ring, size, encY, decY, good, goodSize, old, oldSize, _, _, level, gen⟩ := h
  refine ⟨ring, size, encY, isSample_getLastD linear decY, good, goodSize, old, oldSize, linear, fun b hb => ?_, level, gen⟩
  have same : BoundaryOutcome.decode (.ready block) = .decode (.ready b) := hb
  injection same with same
  injection same with same
  rw [← same, length]

/-- The state with an engine idle. -/
def State.freed (e : EngineNo) (s : State) : State :=
  { s with eng := { s.eng with engines := s.eng.engines.set e none } }

theorem calm_freed (e : EngineNo) (s : State) : Calm s (s.freed e) := calm_less s (.free e s.eng) rfl

/-- An engine becomes idle and its channel takes over what the job has read and made. -/
theorem calm_freed_setCtx {s : State} {e : EngineNo} {r : Running} {ch : Chan} {c d : Context}
    (hr : s.eng.engines[e] = some r) (hc : s.chan[ch] = some c) (calm : c.Calm d)
    (samples : IsSample r.read.encY → IsSample r.read.decY → c.SamplesSound → d.SamplesSound) :
    Calm s ((s.freed e).setCtx ch d) where
  chan := (quiet_setCtx_of_samples hc calm fun jobs => samples (jobs.2 e r hr).2.1 (jobs.2 e r hr).2.2).chan
  ordered := (EngineBlock.Less.free e s.eng).ordered
  waiting := (calm_freed e s).waiting
  running := (calm_freed e s).running
  encodes _ := (EngineBlock.Less.free e s.eng).held _
  holds _ _ := (EngineBlock.Less.free e s.eng).holds
  samples k :=
    have taken := quiet_setCtx_of_samples hc calm fun jobs => samples (jobs.2 e r hr).2.1 (jobs.2 e r hr).2.2
    ⟨(taken.samples k).1, (EngineBlock.Less.free e s.eng).samples k.2⟩

theorem samplesSound_takeEncode {c : Context} {r : EncodeResult} (linear : IsSample r.encY) (h : c.SamplesSound) :
    (c.takeEncode r).SamplesSound := by
  obtain ⟨ring, size, _, more⟩ := h
  exact ⟨ring, size, linear, more⟩

theorem calm_takeEncode (r : EncodeResult) (c : Context) : c.Calm (c.takeEncode r) := {}

theorem calm_takeDecode (block : List Int) (c : Context) : c.Calm (c.takeDecode block) := {}

theorem calm_takeResult {s : State} {e : EngineNo} {r : Running} (hr : s.eng.engines[e] = some r) :
    Calm s ((s.freed e).takeResult r) := by
  have same := calm_freed e s
  unfold State.takeResult
  split
  · exact same
  · cases hc : s.chan[r.job.chan] with
    | none =>
      have hc : (s.freed e).chan[r.job.chan] = none := hc
      rw [hc]
      exact same
    | some c =>
      have freed : (s.freed e).chan[r.job.chan] = some c := hc
      rw [freed]
      dsimp only
      split
      · split
        · exact same
        · refine Calm.trans ?_ (quiet_placeFrame _ _ _ _ _).toCalm
          rw [modCtx_eq _ c _ _ freed]
          exact calm_freed_setCtx hr hc (calm_takeEncode _ c) fun encY _ => samplesSound_takeEncode (isSample_encodeJob _ _ encY)
      · split
        · rw [modCtx_eq _ c _ _ freed]
          exact calm_freed_setCtx hr hc (calm_takeDecode _ c) fun _ decY => samplesSound_takeDecode
            (fun x hx => isSample_of_mem_decodeSpeech hx) (length_decodeSpeech _ _ _)
        · exact same
      · exact same
      · exact same

theorem quiet_completeJob (e : EngineNo) (s : State) : Quiet s (s.completeJob e) := by
  unfold State.completeJob
  cases hr : s.eng.engines[e] with
  | none => exact .refl s
  | some r =>
    have taken := calm_takeResult hr
    refine { taken.trans (calm_dispatch _ _ ?_) with noWait := fun _ => noWait_dispatch _ _ }
    rw [taken.periodStart]
    exact le_max_right _ _

theorem quiet_completeBefore (t : Nat) : ∀ (n : Nat) (s : State), Quiet s (s.completeBefore t n)
  | 0, s => .refl s
  | n + 1, s => by
    unfold State.completeBefore
    split
    · exact .refl s
    · next e _ => exact (quiet_completeJob e s).trans (quiet_completeBefore t n _)

end Sys2Proof.Machine
end

section
/-! PROOF. The events of a channel's cycle but the uplink boundary are calm (R32 to R37, R89 to R94, R130, R149). -/

namespace Sys2Proof.Machine

/-! ## The playout queue at a downlink boundary -/

theorem seqDistance_eq_zero_iff (x a : Byte) : seqDistance x a = 0 ↔ a = x := by
  unfold seqDistance
  bv_omega

/-- Every entry but the expected one comes one nearer when expected advances (R76, R90). -/
theorem seqDistance_advanced {x a : Byte} (h : seqDistance x a ≠ 0) : seqDistance (x + 1) a + 1 = seqDistance x a := by
  unfold seqDistance at *
  bv_omega

/-- Expected advances over a queue that no longer holds the expected entry. -/
theorem playoutSound_advanced {c : Context} (h : c.PlayoutSound) {q : List QueueEntry} (sub : q.Sublist c.queue)
    (past : ∀ x, c.expected = some x → ∀ e ∈ q, seqDistance x e.seq ≠ 0) :
    ({ c with queue := q, expected := c.expected.map (· + 1) } : Context).PlayoutSound := by
  obtain ⟨first, order, early, payloads⟩ := h
  refine ⟨fun hx => ?_, fun y hy => ?_, early, fun e he => payloads e (sub.subset he)⟩
  · exact List.sublist_nil.mp (first (Option.map_eq_none_iff.mp hx) ▸ sub)
  · obtain ⟨x, hx, rfl⟩ := Option.map_eq_some_iff.mp hy
    obtain ⟨ascending, near⟩ := order x hx
    refine ⟨(ascending.sublist sub).imp_of_mem fun ha hb hab => ?_, fun e he => ?_⟩
    · have := seqDistance_advanced (past x hx _ ha)
      have := seqDistance_advanced (past x hx _ hb)
      omega
    · have := seqDistance_advanced (past x hx e he)
      have := near e (sub.subset he)
      omega

/-- The queue without its expected head. -/
theorem playoutSound_taken {c : Context} (h : c.PlayoutSound) {e : QueueEntry} {more : List QueueEntry}
    (hq : c.queue = e :: more) :
    ({ c with queue := more, expected := c.expected.map (· + 1) } : Context).PlayoutSound := by
  refine playoutSound_advanced h (by rw [hq]; exact List.sublist_cons_self e more) fun x hx' f hf => ?_
  obtain ⟨ascending, _⟩ := h.2.1 x hx'
  rw [hq] at ascending
  have := (List.pairwise_cons.mp ascending).1 f hf
  omega

/-- The queue as it stands, where its head is not the expected entry. -/
theorem playoutSound_missed {c : Context} (h : c.PlayoutSound)
    (head : ∀ e more, c.queue = e :: more → c.expected ≠ some e.seq) :
    ({ c with expected := c.expected.map (· + 1) } : Context).PlayoutSound := by
  refine playoutSound_advanced h (List.Sublist.refl _) fun x hx f hf => ?_
  obtain ⟨ascending, _⟩ := h.2.1 x hx
  cases hq : c.queue with
  | nil => rw [hq] at hf; cases hf
  | cons e more =>
    rw [hq] at ascending hf
    have apart : seqDistance x e.seq ≠ 0 := fun zero =>
      head e more hq (by rw [(seqDistance_eq_zero_iff x e.seq).mp zero]; exact hx)
    rcases List.mem_cons.mp hf with rfl | hf
    · exact apart
    · have := (List.pairwise_cons.mp ascending).1 f hf
      omega

/-! ## The downlink boundary -/

theorem quiet_outcome (ch : Chan) (o : BoundaryOutcome) (s : State) (empty : o.samples = [])
    (notReady : ∀ b, o ≠ .decode (.ready b)) : Quiet s (s.modCtx ch fun x => { x with outcome := o }) :=
  quiet_modCtx_of_id (fun _ => {}) fun _ h => samplesSound_outcome h empty notReady

theorem quiet_serveSpeech (ch : Chan) (rate : Rate) (payload : List Byte) (s : State) :
    Quiet s (s.serveSpeech ch rate payload) := by
  unfold State.serveSpeech
  cases s.chan[ch] with
  | none => exact .refl s
  | some c =>
    have served : Quiet s (if s.eng.holdsJob ch .decode then
        (s.modCtx ch fun x => { x with outcome := .decode .missed }).countMiss ch .decode
      else (s.modCtx ch fun x => { x with outcome := .decode .pending }).submit
        (decodeJobAt ch rate payload s.hw.periodStart) s.hw.periodStart) := by
      split
      · exact (quiet_outcome ch _ s rfl (by simp)).trans (quiet_countMiss ch .decode _)
      · next free =>
        refine (quiet_outcome ch (.decode .pending) s rfl (by simp)).trans (quiet_submit_decode ?_ rfl ?_ ?_ ?_ rfl)
        · rw [modCtx_hw]
        · rw [modCtx_hw]
          show (s.hw.periodStart + 4000000) % 125000 = _
          omega
        · rw [modCtx_hw]
          exact Nat.lt_add_of_pos_right (by decide)
        · rw [modCtx_eng]
          exact Bool.eq_false_iff.mpr free
    dsimp only
    cases c.state with
    | faulted => exact quiet_modCtx_of_id (fun _ => {}) fun _ h => samplesSound_outcome h rfl (by simp)
    | aligning | active | closing => exact served

theorem quiet_serve (ch : Chan) (e : QueueEntry) (s : State) : Quiet s (s.serve ch e) := by
  unfold State.serve
  cases e.kind with
  | speech => exact quiet_serveSpeech ch _ _ s
  | noData => exact quiet_outcome ch .noData s rfl (by simp)
  | endCall => exact (quiet_outcome ch .endFrame s rfl (by simp)).trans (quiet_notify _ _)
  | sid =>
    refine quiet_modCtx_of_id (fun _ => {}) fun c h => ?_
    obtain ⟨ring, size, encY, _, good, goodSize, block, blockSize, _, _, _, gen⟩ := h
    refine ⟨ring, size, encY, isSample_zero, good, goodSize, block, blockSize, fun x hx => absurd hx (List.not_mem_nil),
      fun b hb => ?_, fun l hl => ?_, gen⟩
    · cases hb
    · cases hl
      exact min_le_left _ _

theorem quiet_startPlayout (ch : Chan) (s : State) : Quiet s (s.startPlayout ch) := by
  unfold State.startPlayout
  cases h : s.chan[ch] with
  | none => exact .refl s
  | some c =>
    have started : Quiet s (s.modCtx ch fun x => { x with
        playout := .playing, started := true, state := if x.state = .aligning then .active else x.state }) := by
      refine quiet_modCtx_of_id (fun d => { closing := ?_, faults := fun k => ?_ }) fun _ => id
      · show (if d.state = .aligning then CallState.active else d.state) = .closing ↔ _
        split
        · next a => simp [a]
        · exact Iff.rfl
      · obtain ⟨records, faulted, serving⟩ := k
        by_cases a : d.state = .aligning
        · refine ⟨records, fun f => ?_, fun _ => serving (.inl a)⟩
          have f : (if d.state = .aligning then CallState.active else d.state) = .faulted := f
          rw [if_pos a] at f
          cases f
        · simp only [if_neg a]
          exact ⟨records, faulted, serving⟩
    dsimp only
    split
    · split
      · exact started.trans (quiet_notify _ _)
      · exact started
    · exact .refl s

theorem quiet_playHead (ch : Chan) (s : State) : Quiet s (s.playHead ch) := by
  unfold State.playHead
  cases h : s.chan[ch] with
  | none => exact .refl s
  | some c =>
    have miss : (∀ e more, c.queue = e :: more → c.expected ≠ some e.seq) → Quiet s (s.modCtx ch fun x => { x with
        expected := x.expected.map (· + 1)
        outcome := .missing
        stats := { x.stats with missing := bump x.stats.missing } }) := fun head =>
      quiet_modCtx fun d hd => by
        cases h.symm.trans hd
        exact ⟨{ playout := fun k => playoutSound_missed k head }, fun k => samplesSound_outcome k rfl (by simp)⟩
    dsimp only
    cases c.playout with
    | waiting =>
      refine quiet_modCtx_of_id (fun _ => {}) fun d k => samplesSound_outcome k ?_ ?_
      · split <;> rfl
      · intro b
        split <;> simp
    | playing =>
      dsimp only
      split
      · next empty => exact miss fun e more hq => by rw [hq] at empty; cases empty
      · next e more hq =>
        split
        · refine Quiet.trans ?_ (quiet_serve ch e _)
          refine quiet_modCtx fun d hd => ?_
          cases h.symm.trans hd
          exact ⟨{ playout := fun k => playoutSound_taken k hq }, id⟩
        · next other =>
          refine miss fun f rest hf => ?_
          rw [hq] at hf
          cases hf
          exact other

/-- The fault record of a kind with its retry timer lowered, where it is RETRYING (R153). -/
def FaultRecord.lowered (r : FaultRecord) : FaultRecord :=
  if r.state = .retrying then { r with remaining := r.remaining - 1 } else r

theorem lowerTimers_eq (ks : List FaultKind) (c : Context) :
    c.lowerTimers ks = c.tended (fun _ => FaultRecord.lowered) ks := by
  unfold Context.lowerTimers Context.tended
  congr
  funext x k
  by_cases retrying : (x.fault k).state = .retrying
  · simp only [FaultRecord.lowered, if_pos retrying]
  · simp only [FaultRecord.lowered, if_neg retrying, setFault_fault]

theorem sound_lowered {r : FaultRecord} (h : r.Sound) : r.lowered.Sound := by
  unfold FaultRecord.lowered
  split
  · exact h
  · exact h

theorem lowered_holds (r : FaultRecord) : r.lowered.holds = r.holds := by
  unfold FaultRecord.lowered
  split <;> rfl

theorem faultsSound_tended {c : Context} {act : FaultKind → FaultRecord → FaultRecord} {ks : List FaultKind}
    (once : ks.Nodup) (sound : ∀ k r, r.Sound → (act k r).Sound) (holds : ∀ k r, (act k r).holds = r.holds)
    (h : c.FaultsSound) : (c.tended act ks).FaultsSound := by
  have same : ∀ k, ((c.tended act ks).fault k).holds = (c.fault k).holds := fun k => by
    rw [fault_tended act c once k]
    split
    · exact holds k _
    · rfl
  have held : (c.tended act ks).heldByFault = c.heldByFault := by simp only [Context.heldByFault, same]
  obtain ⟨records, faulted, serving⟩ := h
  refine ⟨fun k => ?_, ?_, ?_⟩
  · rw [fault_tended act c once k]
    split
    · exact sound k _ (records k)
    · exact records k
  · rw [tended_state, held]
    exact faulted
  · rw [tended_state, held]
    exact serving

theorem quiet_moveWindow (ch : Chan) {before : List FaultKind} (once : before.Nodup) (s : State) :
    Quiet s (s.moveWindow ch before) := by
  unfold State.moveWindow
  cases h : s.chan[ch] with
  | none => exact .refl s
  | some c =>
    refine Quiet.trans ?_ (quiet_rest _ (s.setCtx ch _))
    have touches := tended_touches (fun _ => FaultRecord.lowered) { c with window := some (nextWindow c.window) } before
    have faults := fun k : c.FaultsSound => faultsSound_tended once (fun _ _ => sound_lowered) (fun _ => lowered_holds)
      (c := { c with window := some (nextWindow c.window) }) k
    rw [lowerTimers_eq]
    rw [touches] at faults ⊢
    exact quiet_setCtx h { faults := faults } id

theorem quiet_downlinkBoundary (ch : Chan) (s : State) : Quiet s (s.downlinkBoundary ch) := by
  unfold State.downlinkBoundary
  cases s.chan[ch] with
  | none => exact .refl s
  | some c =>
    have played : Quiet s ((((s.raiseStarvation ch).startPlayout ch).playHead ch).moveWindow ch c.retryingKinds) :=
      (((quiet_raiseStarvation ch s).trans (quiet_startPlayout ch _)).trans (quiet_playHead ch _)).trans
        (quiet_moveWindow ch (nodup_filter_allKinds _) _)
    dsimp only
    cases c.state with
    | closing => exact quiet_outcome ch .none s rfl (by simp)
    | aligning | active | faulted => exact played

/-! ## The output block start -/

/-- A change of a context that plays: its output, its block and what the decoder and the noise generator hold. -/
structure Context.Plays (c d : Context) : Prop where
  calm : c.Calm d
  samples : c.SamplesSound → d.SamplesSound

/-- A NOISE block and the generator after it. -/
theorem samplesSound_noise {c : Context} {b : List Int} {g : BitVec 16} (h : c.SamplesSound) (linear : ∀ x ∈ b, IsSample x)
    (length : b.length = 160) (off : g ≠ 0) :
    ({ c with output := .noise, block := b, noiseGen := g } : Context).SamplesSound := by
  obtain ⟨ring, size, encY, decY, good, goodSize, _, _, ready, readySize, level, _⟩ := h
  exact ⟨ring, size, encY, decY, good, goodSize, linear, length, ready, readySize, level, off⟩

theorem plays_noise (c : Context) : c.Plays c.noiseBlock where
  calm := {}
  samples h := by
    obtain ⟨_, _, _, _, _, _, _, _, _, _, level, gen⟩ := id h
    have amplitude : noiseAmplitude c.noiseLevel ≤ 4064 := by
      unfold noiseAmplitude
      cases hl : c.noiseLevel with
      | none => decide
      | some l => have := level l hl; simp only [Option.getD_some]; omega
    exact samplesSound_noise h (fun _ => isSample_of_mem_noiseSamples amplitude) (length_noiseSamples _ _ _)
      (noiseAfter_ne_zero 160 gen)

theorem plays_conceal (c : Context) : c.Plays c.concealStep := by
  unfold Context.concealStep
  dsimp only
  split
  · exact ⟨{}, id⟩
  · refine ⟨{}, fun h => ?_⟩
    obtain ⟨ring, size, encY, _, good, goodSize, _, _, ready, readySize, level, gen⟩ := h
    have block := fun x => isSample_of_mem_concealedBlock (j := c.concealIndex + 1) good (x := x)
    exact ⟨ring, size, encY, isSample_getLastD block isSample_zero, good, goodSize, block,
      (length_concealedBlock _ _).trans goodSize, ready, readySize, level, gen⟩

theorem plays_missing (c : Context) : c.Plays c.missingBlock := by
  have conceal := plays_conceal c
  have counted : c.Plays c.countedConcealStep := by
    unfold Context.countedConcealStep
    dsimp only
    split
    · exact ⟨conceal.calm.trans {}, conceal.samples⟩
    · exact conceal
  unfold Context.missingBlock
  cases c.output with
  | noise => exact plays_noise c
  | idle | muted => exact ⟨.refl c, id⟩
  | decoded | concealed => exact counted

theorem plays_active (c : Context) : c.Plays c.activeBlock := by
  unfold Context.activeBlock
  split
  · next b hb =>
    refine ⟨{}, fun h => ?_⟩
    obtain ⟨ring, size, encY, decY, _, _, _, _, ready, readySize, level, gen⟩ := h
    have block : ∀ x ∈ b, IsSample x := fun x hx => ready x (by rw [hb]; exact hx)
    exact ⟨ring, size, encY, decY, block, readySize b hb, block, readySize b hb, ready, readySize, level, gen⟩
  · exact plays_conceal c
  · exact plays_conceal c
  · exact plays_missing c
  · exact plays_noise c
  · exact plays_missing c
  · exact plays_missing c
  · exact plays_missing c
  · exact ⟨{}, id⟩

theorem plays_faulted (out : OutDn) (c : Context) : c.Plays (c.faultedBlock out) := by
  cases out with
  | idle => exact ⟨{}, id⟩
  | noise => exact plays_noise c
  | hold => exact plays_conceal c

theorem calm_chooseBlock (out : OutDn) (c : Context) :
    c.Calm (c.chooseBlock out) ∧ (c.SamplesSound → (c.chooseBlock out).SamplesSound) := by
  have used : ∀ d, c.Plays d → c.Calm { d with outcome := .none } ∧
      (c.SamplesSound → ({ d with outcome := .none } : Context).SamplesSound) := fun d h =>
    ⟨h.calm.trans {}, fun k => samplesSound_outcome (h.samples k) rfl (by simp)⟩
  unfold Context.chooseBlock
  split
  · exact used { c with output := .idle } ⟨{}, id⟩
  · exact used { c with output := .idle } ⟨{}, id⟩
  · exact used _ (plays_faulted out c)
  · exact used _ (plays_active c)

theorem quiet_driven (v : Vector (Option Byte) 256) (s : State) : Quiet s { s with hw := { s.hw with driven := v } } where
  chan _ := rel_calm_refl _

theorem quiet_sendCode (ch : Chan) (s : State) : Quiet s (s.sendCode ch) := by
  unfold State.sendCode
  cases h : s.chan[ch] with
  | none => exact .refl s
  | some c =>
    refine Quiet.trans (quiet_setCtx (d := c.countSent s.hw.c) h ?_ ?_) (quiet_driven _ _)
    · unfold Context.countSent
      split
      · exact {}
      · exact .refl c
    · unfold Context.countSent
      split
      · exact id
      · exact id

theorem quiet_missAtBlockStart (ch : Chan) (s : State) : Quiet s (s.missAtBlockStart ch) := by
  unfold State.missAtBlockStart
  cases s.chan[ch] with
  | none => exact .refl s
  | some c =>
    dsimp only
    split
    · exact (quiet_removeWaiting ch .decode s).trans (quiet_missJob ch .decode _)
    · exact .refl s

theorem quiet_chooseOutput (ch : Chan) (s : State) : Quiet s (s.chooseOutput ch) :=
  (quiet_missAtBlockStart ch s).trans (quiet_modCtx fun c _ => calm_chooseBlock _ c)

theorem quiet_outputBlockStart (ch : Chan) (s : State) : Quiet s (s.outputBlockStart ch) :=
  (quiet_chooseOutput ch s).trans (quiet_sendCode ch _)

/-! ## The load window -/

theorem quiet_loadWindowEnd (s : State) : Quiet s s.loadWindowEnd := by
  unfold State.loadWindowEnd
  dsimp only
  split
  · exact (quiet_load _ s).trans (quiet_notify _ _)
  · exact quiet_load _ s

/-! ## The events raised at a period start -/

/-- An event other than an uplink boundary. -/
def Due.Gentle : Due → Prop
  | .uplink _ => False
  | .downlink _ | .blockStart _ | .loadWindowEnd => True

theorem Due.Gentle.ne_uplink {d : Due} (h : d.Gentle) (ch : Chan) : .uplink ch ≠ d := by rintro rfl; exact h

theorem quiet_taken {d : Due} (h : d.Gentle) (s : State) : Quiet s { s with due := s.due.filter fun x => x ≠ d } :=
  quiet_due s fun ch => by simp [h.ne_uplink ch]

theorem quiet_takeEvent {d : Due} (h : d.Gentle) (s : State) : Quiet s (s.takeEvent d) := by
  refine (quiet_taken h s).trans ?_
  cases d with
  | uplink ch => cases h
  | downlink ch => exact quiet_downlinkBoundary ch _
  | blockStart ch => exact quiet_outputBlockStart ch _
  | loadWindowEnd => exact quiet_loadWindowEnd _

end Sys2Proof.Machine
end

section
/-! PROOF. The link port's events and the control line's receiver and transmitter are calm (R80 to R87, R99 to R112, R134 to
R142, R173 to R178). -/

namespace Sys2Proof.Machine

/-! ## Arrivals at the alignment unit -/

theorem calm_takeAdjust (r : Received) (c : Context) : c.Calm (c.takeAdjust r) := by
  unfold Context.takeAdjust
  split
  · exact .refl c
  · split
    · exact .refl c
    · next ignored =>
      refine { adjust := fun _ a ha => ?_ }
      cases ha
      have nonzero : r.amount ≠ 0 := fun zero => ignored (by simp [zero])
      exact ⟨le_min (by decide) (Nat.one_le_iff_ne_zero.mpr nonzero), min_le_left _ _⟩

theorem calm_setCondition_false (k : FaultKind) (c : Context) : c.Calm (c.setCondition k false) :=
  calm_setFault fun h => faultsSound_setFault h (h.1 k) rfl

theorem calm_takeEcho (r : Received) (c : Context) : c.Calm (c.takeEcho r) := by
  unfold Context.takeEcho
  split
  · exact (Context.Calm.trans (d := { c with request := none, drift := 0 }) {} (calm_setCondition_false .drift _)).trans {}
  · exact .refl c

theorem calm_takeRate (r : Received) (c : Context) : c.Calm (c.takeRate r) := by
  unfold Context.takeRate
  split
  · exact .refl c
  · exact {}

/-- What is linear in a context depends on eight of its fields alone. -/
theorem Context.SamplesSound.of_same {c d : Context} (h : c.SamplesSound) (ring : d.ring = c.ring) (encY : d.encY = c.encY)
    (decY : d.decY = c.decY) (lastGood : d.lastGood = c.lastGood) (block : d.block = c.block)
    (outcome : d.outcome = c.outcome) (level : d.noiseLevel = c.noiseLevel) (gen : d.noiseGen = c.noiseGen) :
    d.SamplesSound := by
  unfold Context.SamplesSound
  rw [ring, encY, decY, lastGood, block, outcome, level, gen]
  exact h

theorem samplesSound_takeAdjust (r : Received) {c : Context} (h : c.SamplesSound) : (c.takeAdjust r).SamplesSound := by
  unfold Context.takeAdjust
  split
  · exact h
  · split
    · exact h
    · exact h.of_same rfl rfl rfl rfl rfl rfl rfl rfl

theorem samplesSound_takeEcho (r : Received) {c : Context} (h : c.SamplesSound) : (c.takeEcho r).SamplesSound := by
  unfold Context.takeEcho
  split
  · exact h.of_same rfl rfl rfl rfl rfl rfl rfl rfl
  · exact h

theorem samplesSound_takeRate (r : Received) {c : Context} (h : c.SamplesSound) : (c.takeRate r).SamplesSound := by
  unfold Context.takeRate
  split
  · exact h
  · exact h.of_same rfl rfl rfl rfl rfl rfl rfl rfl

theorem samplesSound_aligned (r : Received) {c : Context} (h : c.SamplesSound) :
    (((c.takeAdjust r).takeEcho r).takeRate r).SamplesSound :=
  samplesSound_takeRate r (samplesSound_takeEcho r (samplesSound_takeAdjust r h))

/-! ## Arrivals at the playout queue -/

/-- An entry a valid unit makes: a rate exactly where it is SPEECH, and the payload its kind and rate call for (R77). -/
def QueueEntry.Sound (e : QueueEntry) : Prop :=
  (e.rate.isSome ↔ e.kind = .speech) ∧ payloadLength e.kind e.rate = some e.payload.length

theorem sound_of_checkUnit {bytes : List Byte} {r : Received} {e : QueueEntry} (h : checkUnit bytes = .ok (r, e)) :
    e.Sound := by
  unfold checkUnit at h
  split at h
  · cases h
  split at h
  · cases h
  split at h
  · cases h
  next payload _ kind _ =>
  dsimp only at h
  split at h
  · cases h
  split at h
  · cases h
  next length known same =>
  cases h
  refine ⟨?_, by rw [known, not_not.mp payload, not_not.mp same]⟩
  cases kind with
  | speech =>
    cases hr : rateOfCode r.rate with
    | none => rw [hr] at known; cases known
    | some rate => simp
  | sid | noData | endCall => simp

theorem mem_insertEntry (x : Byte) (e f : QueueEntry) (q : List QueueEntry) : f ∈ insertEntry x e q ↔ f = e ∨ f ∈ q := by
  induction q with
  | nil => simp [insertEntry]
  | cons g rest ih =>
    unfold insertEntry
    split
    · simp
    · simp only [List.mem_cons, ih]
      tauto

/-- Sequence numbers at one distance are one (R76). -/
theorem seq_of_seqDistance {x a b : Byte} (h : seqDistance x a = seqDistance x b) : a = b := by
  unfold seqDistance at h
  bv_omega

theorem ascending_insertEntry {x : Byte} {e : QueueEntry} {q : List QueueEntry} (fresh : ∀ f ∈ q, f.seq ≠ e.seq)
    (h : q.Pairwise fun a b => seqDistance x a.seq < seqDistance x b.seq) :
    (insertEntry x e q).Pairwise fun a b => seqDistance x a.seq < seqDistance x b.seq := by
  induction q with
  | nil => simp [insertEntry]
  | cons f rest ih =>
    obtain ⟨first, others⟩ := List.pairwise_cons.mp h
    unfold insertEntry
    split
    · next nearer =>
      refine List.pairwise_cons.mpr ⟨fun g hg => ?_, h⟩
      rcases List.mem_cons.mp hg with rfl | hg
      · exact nearer
      · exact nearer.trans (first g hg)
    · next further =>
      refine List.pairwise_cons.mpr ⟨fun g hg => ?_, ih (fun g hg => fresh g (List.mem_cons_of_mem f hg)) others⟩
      rcases (mem_insertEntry x e g rest).mp hg with rfl | hg
      · exact lt_of_le_of_ne (not_lt.mp further) fun same => fresh f List.mem_cons_self (seq_of_seqDistance same)
      · exact first g hg

theorem calm_tookFrame (c : Context) : c.Calm c.tookFrame := by
  refine Context.Calm.trans (d := { c with
    starvation := 0, tooEarlyRun := 0, stats := { c.stats with framesIn := bump c.stats.framesIn } }) ?_
    (calm_setCondition_false .starvation _)
  exact { playout := fun h => ⟨h.1, h.2.1, Nat.zero_le _, h.2.2.2⟩ }

/-- A queue of one entry, the expected one. -/
theorem playoutSound_alone {c : Context} {e : QueueEntry} (h : c.PlayoutSound) (sound : e.Sound) (st : PlayoutState) :
    ({ c with expected := some e.seq, queue := [e], playout := st } : Context).PlayoutSound := by
  refine ⟨fun hx => absurd hx (by simp), fun x hx => ?_, h.2.2.1, fun f hf => ?_⟩
  · cases hx
    refine ⟨List.pairwise_singleton _ _, fun f hf => ?_⟩
    rw [List.mem_singleton.mp hf, (seqDistance_eq_zero_iff _ _).mpr rfl]
    decide
  · rw [List.mem_singleton.mp hf]
    exact sound

/-- A queue with one entry more, at a distance below 8 that no other holds. -/
theorem playoutSound_inserted {c : Context} {e : QueueEntry} {x : Byte} (h : c.PlayoutSound) (sound : e.Sound)
    (hx : c.expected = some x) (near : seqDistance x e.seq < 8) (fresh : ∀ f ∈ c.queue, f.seq ≠ e.seq) :
    ({ c with queue := insertEntry (c.expected.getD 0) e c.queue } : Context).PlayoutSound := by
  obtain ⟨_, order, run, payloads⟩ := h
  obtain ⟨ascending, close⟩ := order x hx
  have base : c.expected.getD 0 = x := by rw [hx, Option.getD_some]
  rw [base]
  refine ⟨fun hn => absurd (hx.symm.trans hn) (by simp), fun y hy => ?_, run, fun f hf => ?_⟩
  · cases hx.symm.trans hy
    refine ⟨ascending_insertEntry fresh ascending, fun f hf => ?_⟩
    rcases (mem_insertEntry x e f _).mp hf with rfl | hf
    · exact near
    · exact close f hf
  · rcases (mem_insertEntry x e f _).mp hf with rfl | hf
    · exact sound
    · exact payloads f hf

theorem calm_takeEntry {e : QueueEntry} (sound : e.Sound) (c : Context) :
    c.Calm (c.takeEntry e (c.classify e.seq)) := by
  unfold Context.classify
  split
  · exact Context.Calm.trans (d := { c with expected := some e.seq, queue := [e] })
      { playout := fun h => playoutSound_alone h sound c.playout } (calm_tookFrame _)
  · next x hx =>
    dsimp only
    split
    · next near =>
      split
      · exact {}
      · next new =>
        exact Context.Calm.trans (d := { c with queue := insertEntry (c.expected.getD 0) e c.queue })
          { playout := fun h => playoutSound_inserted h sound hx near (by simpa using new) } (calm_tookFrame _)
    · split
      · split
        · exact Context.Calm.trans (d := { c with
            expected := some e.seq
            queue := [e]
            playout := .waiting
            stats := { c.stats with tooEarly := bump c.stats.tooEarly, resyncs := bump c.stats.resyncs } })
            { playout := fun h => playoutSound_alone h sound .waiting } (calm_tookFrame _)
        · next early =>
          refine { playout := fun h => ⟨h.1, h.2.1, ?_, h.2.2.2⟩ }
          have := h.2.2.1
          show c.tooEarlyRun + 1 ≤ 2
          omega
      · exact {}

theorem samplesSound_takeEntry {c : Context} (e : QueueEntry) (v : Verdict) (h : c.SamplesSound) :
    (c.takeEntry e v).SamplesSound := by
  cases v with
  | first | accepted | duplicate | tooEarly | resync | late => exact h

theorem quiet_countVerdict (ch : Chan) (v : Verdict) (s : State) : Quiet s (s.countVerdict ch v) := by
  unfold State.countVerdict
  cases h : s.chan[ch] with
  | none => exact .refl s
  | some c =>
    dsimp only
    split
    · exact .refl s
    · next m _ => exact (quiet_setCtx (d := c.countArrival m) h {} id).trans (quiet_rest _ _)

theorem quiet_route {e : QueueEntry} (sound : e.Sound) (ch : Chan) (r : Received) (s : State) :
    Quiet s (s.route ch r e) := by
  unfold State.route
  cases h : s.chan[ch] with
  | none => exact .refl s
  | some c =>
    have aligned := ((calm_takeAdjust r c).trans (calm_takeEcho r _)).trans (calm_takeRate r _)
    exact (quiet_setCtx h (aligned.trans (calm_takeEntry sound _))
      fun k => samplesSound_takeEntry e _ (samplesSound_aligned r k)).trans (quiet_countVerdict ch _ _)

theorem sound_countError {lp : LinkPort} (h : lp.Sound) (e : LinkError) : (lp.countError e).Sound := by
  cases e with
  | length | format | unknownTag | notAccepting => exact h

theorem quiet_takeUnit (bytes : List Byte) (s : State) : Quiet s (s.takeUnit bytes) := by
  have ended : Quiet s { s with link := { s.link with receiving := false } } := quiet_link s id
  refine ended.trans ?_
  unfold State.takeUnit
  dsimp only
  split
  · next e _ => exact quiet_link (lp := LinkPort.countError _ e) _ fun h => sound_countError h e
  · next ch r entry valid =>
    unfold State.checkArrival at valid
    split at valid
    · cases valid
    · next r' entry' parsed =>
      split at valid
      · cases valid
      · split at valid
        · cases valid
        · split at valid
          · cases valid
          · cases valid
            exact quiet_route (sound_of_checkUnit parsed) ch r _

/-! ## The link state -/

theorem quiet_cutUnit (s : State) : Quiet s { s with link := s.link.cutUnit } := by
  refine quiet_link s fun h => ?_
  unfold LinkPort.cutUnit
  split
  · exact h
  · exact h

theorem quiet_linkDown (s : State) : Quiet s s.linkDown :=
  ((quiet_link s fun h => h.down).trans (quiet_notify _ _)).trans
    (quiet_forEachOpen (fun ch t => quiet_findPresent ch .link t) _)

theorem quiet_linkUp (s : State) : Quiet s s.linkUp :=
  ((quiet_link s fun h => h.up).trans (quiet_notify _ _)).trans
    (quiet_forEachOpen (fun ch t => quiet_setAbsent ch .link t) _)

theorem quiet_linkPaused (s : State) :
    Quiet s ({ s with link := { s.link with state := .paused } }.notify (.linkState .paused)) :=
  (quiet_link s fun h => h.pause).trans (quiet_notify _ _)

theorem quiet_linkResumed (s : State) :
    Quiet s ({ s with link := { s.link with state := .up }.start }.notify (.linkState .up)) :=
  (quiet_link s fun h => h.up).trans (quiet_notify _ _)

/-! ## The control line -/

/-- The control line and the settings change, the processor standing. -/
theorem quiet_ctl {ctl : ControlLine} {line : LineSettings} (s : State) (proc : ctl.proc = s.ctl.proc)
    (answer : s.ctl.answer = none → ctl.answer = none) (sound : s.ctl.Sound → ctl.Sound) :
    Quiet s { s with ctl := ctl, settings := { s.settings with line := line } } where
  chan _ := rel_calm_refl _
  proc := proc
  answer := answer
  control h := by
    rw [controlInv_iff] at *
    exact ⟨sound h.1, h.2⟩

theorem quiet_freeCount (n : Nat) (s : State) : Quiet s { s with freeCount := n } where
  chan _ := rel_calm_refl _

theorem quiet_withRx {rx : RxState} (s : State) (h : s.ctl.Sound → rx.Sound) : Quiet s (s.withRx rx) :=
  quiet_ctl (line := s.settings.line) s rfl id fun k => ⟨h k, k.2⟩

theorem quiet_dropMessage (pe fe : Bool) (other : LineCause) (s : State) : Quiet s (s.dropMessage pe fe other) :=
  ((quiet_withRx (rx := .hunt) s fun _ => trivial).trans (quiet_freeCount _ _)).trans (quiet_notify _ _)

theorem quiet_abandonMessage (s : State) : Quiet s s.abandonMessage := by
  unfold State.abandonMessage
  split
  · exact .refl s
  · exact quiet_dropMessage _ _ _ s
  · exact quiet_dropMessage _ _ _ s

theorem length_body_of_messageOf {bs : List Byte} {m : Message} (h : messageOf bs = some m) :
    m.body.length + 2 = bs.length := by
  unfold messageOf at h
  split at h
  · cases h
    rfl
  · cases h

/-- A message of which the last byte has come is offered to the order buffer. -/
theorem quiet_offerOrder {m : Message} (s : State) (short : s.ctl.Sound → m.body.length ≤ 248) :
    Quiet s ((s.withRx .hunt).offerOrder m) := by
  unfold State.offerOrder
  split
  · next room =>
    refine quiet_ctl (line := s.settings.line) s rfl id fun k => ?_
    obtain ⟨_, _, bodies, more⟩ := id k
    refine ⟨trivial, ?_, fun x hx => ?_, more⟩
    · rw [List.length_append]
      exact room
    · rcases List.mem_append.mp hx with hx | hx
      · exact bodies x hx
      · rw [List.mem_singleton.mp hx]
        exact short k
  · refine Quiet.trans ?_ (quiet_notify _ _)
    exact quiet_ctl (ctl := { s.ctl with rx := .hunt, overrun := true }) (line := s.settings.line) s rfl id
      fun k => ⟨trivial, k.2⟩

theorem quiet_completeMessage (b : Byte) (err : ByteError) (s : State) : Quiet s (s.completeMessage b err) := by
  unfold State.completeMessage
  split
  · exact .refl s
  · exact .refl s
  · next n got pe fe hrx =>
    dsimp only
    split
    · next last =>
      split
      · exact quiet_dropMessage _ _ _ s
      · split
        · exact quiet_withRx s fun _ => trivial
        · next m hm =>
          refine quiet_offerOrder s fun k => ?_
          have sound := k.1
          rw [hrx] at sound
          have := sound.2.1
          have := length_body_of_messageOf hm
          rw [List.length_append, List.length_singleton] at this
          omega
    · exact .refl s

theorem quiet_storeByte (b : Byte) (err : ByteError) (s : State) : Quiet s (s.storeByte b err) := by
  unfold State.storeByte
  split
  · exact .refl s
  · exact .refl s
  · next n got pe fe hrx =>
    split
    · next more =>
      refine quiet_withRx s fun k => ?_
      have sound := k.1
      rw [hrx] at sound
      exact ⟨sound.1, sound.2.1, by simpa using more⟩
    · exact .refl s

theorem quiet_markStart (b : Byte) (err : ByteError) (s : State) : Quiet s (s.markStart b err) := by
  unfold State.markStart
  split
  · split
    · exact quiet_withRx s fun _ => trivial
    · exact .refl s
  · exact .refl s
  · exact .refl s

theorem quiet_takeCount (b : Byte) (err : ByteError) (s : State) : Quiet s (s.takeCount b err) := by
  unfold State.takeCount
  split
  · split
    · next good =>
      refine quiet_withRx s fun _ => ?_
      simp only [goodCount, Bool.and_eq_true, decide_eq_true_eq] at good
      exact ⟨good.2.1, good.2.2, by simp only [List.length_nil]; omega⟩
    · exact .refl s
  · exact .refl s
  · exact .refl s

theorem quiet_refuseCount (b : Byte) (err : ByteError) (s : State) : Quiet s (s.refuseCount b err) := by
  unfold State.refuseCount
  split
  · split
    · exact .refl s
    · exact quiet_dropMessage _ _ _ s
  · exact .refl s
  · exact .refl s

theorem quiet_receiveByte {act : Byte → ByteError → State → State} (h : ∀ b err s, Quiet s (act b err s))
    (bits : List Bool) (s : State) : Quiet s (s.receiveByte act bits) := by
  unfold State.receiveByte
  split
  · exact .refl s
  · exact h _ _ s

theorem endMessage_proc (ctl : ControlLine) : ctl.endMessage.proc = ctl.proc := by
  unfold ControlLine.endMessage
  split <;> simp

theorem endMessage_answer (ctl : ControlLine) (h : ctl.answer = none) : ctl.endMessage.answer = none := by
  unfold ControlLine.endMessage
  split <;> simp [h]

theorem ControlLine.Sound.endMessage {ctl : ControlLine} (h : ctl.Sound) : ctl.endMessage.Sound := by
  obtain ⟨rx, few, short, notices, flag, idle, answering, line, held⟩ := id h
  unfold ControlLine.endMessage
  split
  · exact h
  · exact ControlLine.Sound.choose rx few short notices flag (fun hx => by cases hx) (fun hx => by cases hx) fun _ _ _ => rfl
  · exact ControlLine.Sound.choose rx few short notices flag (fun hx => by cases hx) line held

theorem quiet_endControlMessage (s : State) : Quiet s s.endControlMessage := by
  unfold State.endControlMessage
  split
  · next line _ _ =>
    exact (quiet_ctl (line := line) s (endMessage_proc _) (endMessage_answer _) fun k => k.endMessage).trans
      (quiet_abandonMessage _)
  · exact quiet_ctl (line := s.settings.line) s (endMessage_proc _) (endMessage_answer _) fun k => k.endMessage

end Sys2Proof.Machine
end

section
/-! PROOF. What the orders write apart from their answers is calm: the configuration in its ranges (R29, R163, R165, R168),
the gains (R8), the clearing of faults (R158), the history and the flags (R162, R179). -/

namespace Sys2Proof.Machine

/-! ## The ranges of a profile's fields -/

theorem inRange_eq_some {lo hi m : Nat} {v : Int} (h : inRange lo hi v = some m) : lo ≤ m ∧ m ≤ hi := by
  unfold inRange at h
  split at h
  · next inside =>
    cases h
    simp only [Bool.and_eq_true, decide_eq_true_eq] at inside
    omega
  · cases h

/-- A kind's place written in one of the tables by kind keeps what holds of each. -/
theorem forall_set_fin {α : Type} {v : Vector α 7} {p : α → Prop} (h : ∀ k : Fin 7, p v[k]) (i : Fin 7) {x : α} (hx : p x)
    (k : Fin 7) : p (v.set i x)[k] := by
  rw [set_getElem_fin]
  split
  · exact hx
  · exact h k

theorem Profile.InRange.write {p q : Profile} {field : Nat} {v : Int} (h : p.InRange) (w : p.write field v = some q) :
    q.InRange := by
  obtain ⟨rates, up, dn, depth, lo, hi, vad, hang, conceal, starve, late, overload, drift, miss, kinds⟩ := h
  unfold Profile.write at w
  split at w
  · obtain ⟨m, hm, rfl⟩ := Option.map_eq_some_iff.mp w
    obtain ⟨low, high⟩ := inRange_eq_some hm
    refine ⟨?_, up, dn, depth, lo, hi, vad, hang, conceal, starve, late, overload, drift, miss, kinds⟩
    change Nat.testBit m 0 = true ∨ Nat.testBit m 1 = true ∨ Nat.testBit m 2 = true
    interval_cases m <;> decide
  · obtain ⟨m, _, w⟩ := Option.bind_eq_some_iff.mp w
    obtain ⟨r, _, rfl⟩ := Option.map_eq_some_iff.mp w
    exact ⟨rates, up, dn, depth, lo, hi, vad, hang, conceal, starve, late, overload, drift, miss, kinds⟩
  · obtain ⟨inside, w⟩ := Option.ite_none_right_eq_some.mp w
    cases w
    exact ⟨rates, by simpa using inside, dn, depth, lo, hi, vad, hang, conceal, starve, late, overload, drift, miss, kinds⟩
  · obtain ⟨inside, w⟩ := Option.ite_none_right_eq_some.mp w
    cases w
    exact ⟨rates, up, by simpa using inside, depth, lo, hi, vad, hang, conceal, starve, late, overload, drift, miss, kinds⟩
  · obtain ⟨m, hm, rfl⟩ := Option.map_eq_some_iff.mp w
    exact ⟨rates, up, dn, inRange_eq_some hm, lo, hi, vad, hang, conceal, starve, late, overload, drift, miss, kinds⟩
  · obtain ⟨m, hm, rfl⟩ := Option.map_eq_some_iff.mp w
    exact ⟨rates, up, dn, depth, (inRange_eq_some hm).2, hi, vad, hang, conceal, starve, late, overload, drift, miss, kinds⟩
  · obtain ⟨m, hm, rfl⟩ := Option.map_eq_some_iff.mp w
    exact ⟨rates, up, dn, depth, lo, (inRange_eq_some hm).2, vad, hang, conceal, starve, late, overload, drift, miss, kinds⟩
  · obtain ⟨m, _, rfl⟩ := Option.map_eq_some_iff.mp w
    exact ⟨rates, up, dn, depth, lo, hi, vad, hang, conceal, starve, late, overload, drift, miss, kinds⟩
  · obtain ⟨m, hm, rfl⟩ := Option.map_eq_some_iff.mp w
    exact ⟨rates, up, dn, depth, lo, hi, (inRange_eq_some hm).2, hang, conceal, starve, late, overload, drift, miss, kinds⟩
  · obtain ⟨m, hm, rfl⟩ := Option.map_eq_some_iff.mp w
    exact ⟨rates, up, dn, depth, lo, hi, vad, (inRange_eq_some hm).2, conceal, starve, late, overload, drift, miss, kinds⟩
  · obtain ⟨m, hm, rfl⟩ := Option.map_eq_some_iff.mp w
    exact ⟨rates, up, dn, depth, lo, hi, vad, hang, inRange_eq_some hm, starve, late, overload, drift, miss, kinds⟩
  · obtain ⟨m, _, w⟩ := Option.bind_eq_some_iff.mp w
    obtain ⟨x, _, rfl⟩ := Option.map_eq_some_iff.mp w
    exact ⟨rates, up, dn, depth, lo, hi, vad, hang, conceal, starve, late, overload, drift, miss, kinds⟩
  · obtain ⟨m, _, w⟩ := Option.bind_eq_some_iff.mp w
    obtain ⟨x, _, rfl⟩ := Option.map_eq_some_iff.mp w
    exact ⟨rates, up, dn, depth, lo, hi, vad, hang, conceal, starve, late, overload, drift, miss, kinds⟩
  · obtain ⟨m, hm, rfl⟩ := Option.map_eq_some_iff.mp w
    exact ⟨rates, up, dn, depth, lo, hi, vad, hang, conceal, inRange_eq_some hm, late, overload, drift, miss, kinds⟩
  · obtain ⟨m, hm, rfl⟩ := Option.map_eq_some_iff.mp w
    exact ⟨rates, up, dn, depth, lo, hi, vad, hang, conceal, starve, inRange_eq_some hm, overload, drift, miss, kinds⟩
  · obtain ⟨m, hm, rfl⟩ := Option.map_eq_some_iff.mp w
    exact ⟨rates, up, dn, depth, lo, hi, vad, hang, conceal, starve, late, inRange_eq_some hm, drift, miss, kinds⟩
  · obtain ⟨m, hm, rfl⟩ := Option.map_eq_some_iff.mp w
    exact ⟨rates, up, dn, depth, lo, hi, vad, hang, conceal, starve, late, overload, inRange_eq_some hm, miss, kinds⟩
  · obtain ⟨m, hm, rfl⟩ := Option.map_eq_some_iff.mp w
    exact ⟨rates, up, dn, depth, lo, hi, vad, hang, conceal, starve, late, overload, drift, inRange_eq_some hm, kinds⟩
  · split at w
    · obtain ⟨m, _, w⟩ := Option.bind_eq_some_iff.mp w
      obtain ⟨x, _, rfl⟩ := Option.map_eq_some_iff.mp w
      exact ⟨rates, up, dn, depth, lo, hi, vad, hang, conceal, starve, late, overload, drift, miss, kinds⟩
    · split at w
      · obtain ⟨m, hm, rfl⟩ := Option.map_eq_some_iff.mp w
        have times := forall_set_fin (p := fun t => 1 ≤ t ∧ t ≤ 250) (fun k => (kinds k).1) (kindAt (field - 25)).index
          (inRange_eq_some hm)
        exact ⟨rates, up, dn, depth, lo, hi, vad, hang, conceal, starve, late, overload, drift, miss,
          fun k => ⟨times k, (kinds k).2⟩⟩
      · split at w
        · obtain ⟨m, hm, rfl⟩ := Option.map_eq_some_iff.mp w
          have limits := forall_set_fin (p := (· ≤ 15)) (fun k => (kinds k).2) (kindAt (field - 32)).index
            (inRange_eq_some hm).2
          exact ⟨rates, up, dn, depth, lo, hi, vad, hang, conceal, starve, late, overload, drift, miss,
            fun k => ⟨(kinds k).1, limits k⟩⟩
        · cases w

theorem quiet_writeProfile {n : Nat} (hn : n < 16) (zero : n ≠ 0) {field : Nat} {v : Int} {p : Profile} (s : State)
    (w : (s.profiles[n]).write field v = some p) :
    Quiet s { s with profiles := s.profiles.set n { p with defaulted := false } } := by
  refine quiet_profiles s fun ⟨first, ranges⟩ => ⟨?_, fun m => ?_⟩
  · have other : (0 : ProfileNo) ≠ ⟨n, hn⟩ := fun same => zero (congrArg Fin.val same).symm
    exact (set_getElem_fin_other s.profiles ⟨n, hn⟩ 0 _ other).trans first
  · change Profile.InRange ((s.profiles.set (⟨n, hn⟩ : ProfileNo) _)[m])
    rw [set_getElem_fin]
    split
    · exact Profile.InRange.write (q := p) (ranges ⟨n, hn⟩) w
    · exact ranges m

/-! ## The other writes -/

theorem quiet_takeOrder (s : State) : Quiet s s.takeOrder :=
  quiet_ctl (line := s.settings.line) s rfl id fun ⟨rx, few, short, more⟩ =>
    ⟨rx, (List.tail_sublist _).length_le.trans few, fun m hm => short m (List.mem_of_mem_tail hm), more⟩

theorem quiet_records (r : Vector HighwayRecord 8) (s : State) : Quiet s { s with hw := { s.hw with records := r } } where
  chan _ := rel_calm_refl _

theorem levels_write {d e : DeviceSettings} {setting v : Nat} (w : d.write setting v = some e) (h : LevelsSound d.levels) :
    LevelsSound e.levels := by
  unfold DeviceSettings.write at w
  split at w
  · obtain ⟨x, _, rfl⟩ := Option.map_eq_some_iff.mp w
    exact h
  · obtain ⟨_, w⟩ := Option.ite_none_right_eq_some.mp w
    cases w
    exact h
  · obtain ⟨low, w⟩ := Option.ite_none_right_eq_some.mp w
    cases w
    simp only [Bool.and_eq_true, decide_eq_true_eq] at low
    exact forall_set_fin (p := (· ≤ 3)) h _ low.1

theorem quiet_settings {d : DeviceSettings} (s : State) (h : LevelsSound s.settings.levels → LevelsSound d.levels) :
    Quiet s { s with settings := d } where
  chan _ := rel_calm_refl _
  control k := by
    rw [controlInv_iff] at *
    exact ⟨k.1, h k.2.1, k.2.2⟩

theorem quiet_gains (ch : Chan) (up dn : Int) (s : State) :
    Quiet s (s.modCtx ch fun c => { c with gainUp := up, gainDn := dn }) :=
  quiet_modCtx_of_id (fun _ => {}) fun _ => id

theorem quiet_clearAll (s : State) : Quiet s (s.forEachOpen State.clearChannel) :=
  quiet_forEachOpen quiet_clearChannel s

theorem quiet_ackFlags (mask : Byte) (s : State) : Quiet s { s with ctl := { s.ctl with
    flags := s.ctl.flags &&& ~~~mask, overrun := s.ctl.overrun && !mask.getLsbD 6 } } :=
  quiet_ctl (line := s.settings.line) s rfl id fun ⟨rx, few, short, notices, flag, more⟩ =>
    ⟨rx, few, short, notices, by rw [BitVec.getLsbD_and, flag, Bool.false_and], more⟩

theorem quiet_openConditions (ch : Chan) (s : State) : Quiet s (s.openConditions ch) := by
  unfold State.openConditions
  dsimp only
  have highway : Quiet s (if s.hw.sync = .lost then s.findPresent ch .highway else s) := by
    split
    · exact quiet_findPresent ch .highway s
    · exact .refl s
  have link : ∀ t : State, Quiet t (if t.link.state = .down then t.findPresent ch .link else t) := fun t => by
    split
    · exact quiet_findPresent ch .link t
    · exact .refl t
  exact highway.trans (link _)

theorem rateDisagrees_default : Profile.default.rateDisagrees = false := by decide

theorem quiet_markedAtOpen (ch : Chan) (p : ProfileNo) (s : State) :
    Quiet s (if (s.profiles[p]).rateDisagrees then s.markDefaulted ch p else s) := by
  split
  · next disagrees =>
    refine quiet_markDefaulted ch p s fun same => ?_
    rw [same, rateDisagrees_default] at disagrees
    cases disagrees
  · exact .refl s

end Sys2Proof.Machine
end

section
/-! PROOF. What one operation may do to all of the invariants at once, and the operations that move the phases, the modes or
the processor: what each of them keeps. -/

namespace Sys2Proof.Machine

/-! ## The invariants together -/

/-- The invariants that speak of nothing but the state between two events, without those of the modes. -/
structure Steady (s t : State) : Prop where
  profiles : ProfilesInv s → ProfilesInv t := by exact id
  maps : MapsInv s → MapsInv t := by exact id
  egress : EgressInv s → EgressInv t := by exact id
  control : ControlInv s → ControlInv t := by exact id
  faults : FaultsInv s → FaultsInv t := by exact id
  engines : EnginesInv s → EnginesInv t := by exact id
  buckets : BucketsInv s → BucketsInv t := by exact id
  playout : PlayoutInv s → PlayoutInv t := by exact id
  samples : SamplesInv s → SamplesInv t := by exact id

/-- The modes and the held CLOSE too. -/
structure Keeps (s t : State) : Prop extends Steady s t where
  modes : ModeInv s → ModeInv t := by exact id

theorem Steady.refl (s : State) : Steady s s := {}

theorem Steady.trans {s t u : State} (h : Steady s t) (k : Steady t u) : Steady s u where
  profiles := k.profiles ∘ h.profiles
  maps := k.maps ∘ h.maps
  egress := k.egress ∘ h.egress
  control := k.control ∘ h.control
  faults := k.faults ∘ h.faults
  engines := k.engines ∘ h.engines
  buckets := k.buckets ∘ h.buckets
  playout := k.playout ∘ h.playout
  samples := k.samples ∘ h.samples

theorem Keeps.refl (s : State) : Keeps s s := {}

theorem Keeps.trans {s t u : State} (h : Keeps s t) (k : Keeps t u) : Keeps s u :=
  { h.toSteady.trans k.toSteady with modes := k.modes ∘ h.modes }

/-- A calm change keeps every invariant, if it keeps what EnginesInv says beside. -/
theorem Calm.keeps {s t : State} (h : Calm s t) (engines : EnginesInv s → EnginesInv t) : Keeps s t where
  profiles := h.profiles
  maps := h.maps
  egress := h.egress
  control := h.control
  faults := h.faults
  engines := engines
  buckets := h.bucketsInv
  playout := h.playout
  samples := h.samples
  modes := h.modes

theorem Quiet.keeps {s t : State} (h : Quiet s t) : Keeps s t := h.toCalm.keeps h.engines

/-! ## The uplink phase within a period start -/

/-- A context at its place in the uplink phase. A context is late while the clock has moved on to the next period and its
sample of the one before is not yet written. -/
def Context.InPhase (late : Bool) (now : Phase) (c : Context) : Prop :=
  c.nUp ≤ c.blockLen ∧ 120 ≤ c.blockLen ∧ c.blockLen ≤ 200 ∧ (c.fresh = true ∨ late = true → c.nUp < c.blockLen) ∧
  ((if c.fresh then 1 else 0) + (now.val + if late then 159 else 0) + (c.blockLen - c.nUp)) % 160 = c.phiUp.val ∧
  c.AdjustSound

/-- The uplink phase, with some channels late and one whose uplink boundary is being taken. -/
def PhaseIn (late : Chan → Bool) (taken : Option Chan) (s : State) : Prop :=
  125000 ≤ s.hw.expected ∧
  (∀ ch : Chan, .uplink ch ∈ s.due ↔ taken ≠ some ch ∧ ∃ c, s.chan[ch] = some c ∧ c.nUp = c.blockLen) ∧ s.ahead.Nodup ∧
  ∀ (ch : Chan) (c : Context), s.chan[ch] = some c → c.InPhase (late ch) s.hw.c

/-- The ENCODE jobs, with some channels late and one whose uplink boundary is being taken: its job is made now. -/
def EncodeIn (late : Chan → Bool) (taken : Option Chan) (s : State) : Prop :=
  PhaseIn late taken s ∧ EnginesInv s ∧ s.eng.Timely s.hw.periodStart ∧
  (∀ ch : Chan, s.eng.held (Job.isEncodeOf ch) ≤ 1) ∧
  ∀ (ch : Chan) (j : Job), s.eng.Holds j → j.isEncodeOf ch = true → ∃ c, s.chan[ch] = some c ∧ c.fresh = false ∧
    j.deadline + 125000 * (if taken = some ch then 0 else c.nUp + (late ch).toNat) = s.hw.periodStart + 4000000

/-- Between two period starts no channel is late. -/
def nobody : Chan → Bool := fun _ => false

theorem uplinkPhaseInv_iff (s : State) : UplinkPhaseInv s ↔ PhaseIn nobody none s := by
  simp [UplinkPhaseInv, PhaseIn, Context.InPhase, Context.AdjustSound, nobody]

theorem encodeInv_iff (s : State) : EncodeInv s ↔ EncodeIn nobody none s := by
  unfold EncodeInv EncodeIn EngineBlock.Timely EngineBlock.held
  rw [uplinkPhaseInv_iff]
  simp [nobody, and_assoc]

theorem Calm.phaseIn {s t : State} (h : Calm s t) {late : Chan → Bool} {taken : Option Chan} (k : PhaseIn late taken s) :
    PhaseIn late taken t := by
  obtain ⟨expected, raised, once, contexts⟩ := k
  refine ⟨h.expected expected, fun ch => ?_, h.ahead ▸ once, fun ch d hd => ?_⟩
  · rw [h.uplink, raised]
    refine and_congr_right fun _ => ⟨?_, ?_⟩
    · rintro ⟨c, hc, full⟩
      obtain ⟨d, hd, calm⟩ := h.open_ hc
      exact ⟨d, hd, by rw [calm.nUp, calm.blockLen, full]⟩
    · rintro ⟨d, hd, full⟩
      obtain ⟨c, hc, calm⟩ := h.before hd
      exact ⟨c, hc, by rw [← calm.nUp, ← calm.blockLen, full]⟩
  · obtain ⟨c, hc, calm⟩ := h.before hd
    obtain ⟨fits, least, most, short, phase, adjust⟩ := contexts ch c hc
    unfold Context.InPhase
    rw [calm.nUp, calm.blockLen, calm.fresh, calm.phiUp, h.c]
    exact ⟨fits, least, most, short, phase, calm.adjust adjust⟩

theorem Calm.encodeIn {s t : State} (h : Calm s t) (engines : EnginesInv s → EnginesInv t) {late : Chan → Bool}
    {taken : Option Chan} (k : EncodeIn late taken s) : EncodeIn late taken t := by
  obtain ⟨phase, jobs, timely, once, made⟩ := k
  refine ⟨h.phaseIn phase, engines jobs, h.timely timely, fun ch => (h.encodes ch).trans (once ch), fun ch j hj own => ?_⟩
  have encode : j.kind = .encode := by
    simp only [Job.isEncodeOf, Bool.and_eq_true, decide_eq_true_eq] at own
    exact own.2
  obtain ⟨c, hc, settled, deadline⟩ := made ch j (h.holds j encode hj) own
  obtain ⟨d, hd, calm⟩ := h.open_ hc
  exact ⟨d, hd, calm.fresh.trans settled, by rw [calm.nUp, h.periodStart]; exact deadline⟩

/-- Every invariant is kept, within a period start too. -/
structure KeepsAll (s t : State) : Prop extends Keeps s t where
  phase : ∀ late, PhaseIn late none s → PhaseIn late none t := by exact fun _ => id
  encode : ∀ late, EncodeIn late none s → EncodeIn late none t := by exact fun _ => id

theorem KeepsAll.refl (s : State) : KeepsAll s s := {}

theorem KeepsAll.trans {s t u : State} (h : KeepsAll s t) (k : KeepsAll t u) : KeepsAll s u :=
  { h.toKeeps.trans k.toKeeps with
    phase := fun late => k.phase late ∘ h.phase late
    encode := fun late => k.encode late ∘ h.encode late }

theorem Quiet.keepsAll {s t : State} (h : Quiet s t) : KeepsAll s t :=
  { h.keeps with phase := fun _ => h.phaseIn, encode := fun _ => h.toCalm.encodeIn h.engines }

theorem keepsAll_foldl {α : Type} {f : State → α → State} (hf : ∀ s a, KeepsAll s (f s a)) (xs : List α) (s : State) :
    KeepsAll s (xs.foldl f s) :=
  List.foldlRecOn xs f (motive := fun t => KeepsAll s t) (.refl s) fun t h a _ => h.trans (hf t a)

/-! ## Answers -/

/-- An answer placed by the idle processor, with the settings a SET LINE leaves to its end (R173, R176). -/
theorem keepsAll_answerLine {s : State} (idle : s.ctl.proc = .idle) (line : Option LineSettings) (o : Message) (r : Result)
    (more : List Byte) : KeepsAll s ({ s with ctl := { s.ctl with newLine := line } }.answer o r more) where
  control h := by
    rw [controlInv_iff] at *
    refine ⟨?_, h.2⟩
    obtain ⟨rx, few, short, notices, flag, _, _, _, _⟩ := h.1
    refine ControlLine.Sound.choose rx few short notices flag (fun _ => rfl) (fun _ => rfl) fun g ch hp => ?_
    exact absurd (idle.symm.trans hp) (by simp)
  modes h := by
    have same : ({ s with ctl := { s.ctl with newLine := line } }.answer o r more).ctl.proc = s.ctl.proc := choose_proc _
    unfold ModeInv
    rw [same]
    exact h

theorem keepsAll_answer {s : State} (idle : s.ctl.proc = .idle) (o : Message) (r : Result) (more : List Byte) :
    KeepsAll s (s.answer o r more) := keepsAll_answerLine idle s.ctl.newLine o r more

/-! ## Modes -/

theorem openChannels_eq (s : State) : s.openChannels = allChannels.filter fun ch => (s.chan[ch]).isSome := by
  have paired : s.chan.toList.zip allChannels = allChannels.map fun ch => (s.chan[ch], ch) := by
    apply List.ext_getElem <;> simp [allChannels]
  unfold State.openChannels
  rw [paired, List.filterMap_map, ← List.filterMap_eq_filter]
  congr

theorem mem_openChannels (s : State) (ch : Chan) : ch ∈ s.openChannels ↔ (s.chan[ch]).isSome := by
  rw [openChannels_eq, List.mem_filter]
  simp [allChannels]

theorem nodup_openChannels (s : State) : s.openChannels.Nodup := by
  rw [openChannels_eq]
  exact (List.nodup_finRange 256).filter _

theorem openChannels_isEmpty_iff (s : State) : s.openChannels.isEmpty = true ↔ ∀ ch : Chan, s.chan[ch] = none := by
  rw [List.isEmpty_iff, List.eq_nil_iff_forall_not_mem]
  simp only [mem_openChannels, Option.not_isSome_iff_eq_none]

theorem keepsAll_mode {s : State} {wanted m : Mode} (h : modeAfter s.mode wanted (!s.openChannels.isEmpty) = some m) :
    KeepsAll s { s with mode := m } where
  modes k := by
    obtain ⟨setup, drain, held⟩ := k
    have free := openChannels_isEmpty_iff s
    refine ⟨fun hm => ?_, fun hm => ?_, held⟩
    · have hm : m = .setup := hm
      subst hm
      cases hs : s.mode with
      | setup => exact setup hs
      | service =>
        refine free.mp (by_contra fun open_ => ?_)
        rw [hs, Bool.eq_false_iff.mpr open_] at h
        cases wanted <;> cases h
      | drain => rw [hs] at h; cases wanted <;> cases h
    · have hm : m = .drain := hm
      subst hm
      cases hs : s.mode with
      | setup => rw [hs] at h; cases wanted <;> cases h
      | drain => exact drain hs
      | service =>
        have some : ¬ ∀ ch : Chan, s.chan[ch] = none := fun none => by
          rw [hs, free.mpr none] at h
          cases wanted <;> cases h
        exact not_forall.mp some

end Sys2Proof.Machine
end

section
/-! PROOF. The operations that open, close and move a channel: the context written at an uplink boundary, the release of a
closed channel, the setting up of a call (R6, R7, R9, R10, R13, R31, R108). -/

namespace Sys2Proof.Machine

/-! ## The phase bucket table -/

/-- A sum over a list without repetition, with one term changed. -/
theorem sum_map_update {α : Type} [DecidableEq α] {xs : List α} (once : xs.Nodup) {a : α} (ha : a ∈ xs) {f g : α → Nat}
    (same : ∀ x, x ≠ a → g x = f x) : (xs.map g).sum + f a = (xs.map f).sum + g a := by
  induction xs with
  | nil => cases ha
  | cons x rest ih =>
    obtain ⟨new, once⟩ := List.nodup_cons.mp once
    rw [List.map_cons, List.map_cons, List.sum_cons, List.sum_cons]
    rcases List.mem_cons.mp ha with rfl | ha
    · have others : rest.map g = rest.map f :=
        List.map_congr_left fun y hy => same y fun heq => new (heq ▸ hy)
      rw [others]
      omega
    · have step := ih once ha
      have first := same x fun heq => new (heq ▸ ha)
      omega

/-- A channel's context changed, with the buckets moved by what it then contributes, keeps the table right (R128, R129). -/
theorem buckets_setCtx {s t : State} {ch : Chan} {x : Option Context} (hs : t.chan = s.chan.set ch x)
    (moved : ∀ b : Bucket, t.eng.buckets[b] + bucketShare b s.chan[ch] = s.eng.buckets[b] + bucketShare b x)
    (h : BucketsInv s) : BucketsInv t := by
  intro b
  have sums := sum_map_update (List.nodup_finRange 256) (List.mem_finRange ch)
    (f := fun d : Chan => bucketShare b s.chan[d]) (g := fun d : Chan => bucketShare b t.chan[d]) fun d hd => by
      rw [hs, set_getElem_fin_other _ _ _ _ hd]
  have written : t.chan[ch] = x := by rw [hs, set_getElem_fin_self]
  have here := moved b
  have before := h b
  unfold allChannels at before ⊢
  rw [written] at sums
  omega

/-! ## A context written -/

/-- A change of a context that keeps its entries in the maps and the invariants of its own. -/
structure Context.Steady (c d : Context) : Prop where
  tag : d.tag = c.tag := by rfl
  highway : d.highway = c.highway := by rfl
  timeslot : d.timeslot = c.timeslot := by rfl
  playout : c.PlayoutSound → d.PlayoutSound := by exact id
  faults : c.FaultsSound → d.FaultsSound := by exact id
  samples : c.SamplesSound → d.SamplesSound := by exact id

theorem setCtx_chan_at (ch e : Chan) (c : Context) (s : State) :
    (s.setCtx ch c).chan[e] = if e = ch then some c else s.chan[e] := set_getElem_fin s.chan ch e (some c)

/-- What holds of every open channel holds after one is written. -/
theorem forall_setCtx {s : State} {ch : Chan} {c d : Context} {p : Chan → Context → Prop} (hc : s.chan[ch] = some c)
    (step : p ch c → p ch d) (h : ∀ (e : Chan) (x : Context), s.chan[e] = some x → p e x) (e : Chan) (x : Context)
    (hx : (s.setCtx ch d).chan[e] = some x) : p e x := by
  rw [setCtx_chan_at] at hx
  split at hx
  · next he =>
    subst he
    cases hx
    exact step (h e c hc)
  · exact h e x hx

/-- A channel is open with some property after one is written alike, as before. -/
theorem exists_setCtx {s : State} {ch : Chan} {c d : Context} (p : Context → Prop) (hc : s.chan[ch] = some c)
    (same : p d ↔ p c) (e : Chan) :
    (∃ x, (s.setCtx ch d).chan[e] = some x ∧ p x) ↔ ∃ x, s.chan[e] = some x ∧ p x := by
  rw [setCtx_chan_at]
  split
  · next he =>
    subst he
    simp [hc, same]
  · exact Iff.rfl

theorem maps_setCtx {s : State} {ch : Chan} {c d : Context} (hc : s.chan[ch] = some c) (same : c.Steady d)
    (h : MapsInv s) : MapsInv (s.setCtx ch d) :=
  ⟨fun t e => (h.1 t e).trans (exists_setCtx (fun x => x.tag = t) hc (by rw [same.tag]) e).symm,
    fun n e => (h.2 n e).trans
      (exists_setCtx (fun x => slotNo x.highway x.timeslot = n) hc (by rw [same.highway, same.timeslot]) e).symm⟩

/-- A context written and the buckets moved with it. -/
theorem steady_moved {s : State} {ch : Chan} {c d : Context} {v : Vector Nat 16} (hc : s.chan[ch] = some c)
    (same : c.Steady d) (buckets : BucketsInv s → BucketsInv { s.setCtx ch d with eng := { s.eng with buckets := v } }) :
    Steady s { s.setCtx ch d with eng := { s.eng with buckets := v } } where
  maps := maps_setCtx hc same
  faults := forall_setCtx (p := fun _ x => x.FaultsSound) hc same.faults
  playout := forall_setCtx (p := fun _ x => x.PlayoutSound) hc same.playout
  samples h := ⟨forall_setCtx (p := fun _ x => x.SamplesSound) hc same.samples h.1, h.2⟩
  buckets := buckets

theorem steady_setCtx {s : State} {ch : Chan} {c d : Context} (hc : s.chan[ch] = some c) (same : c.Steady d)
    (buckets : BucketsInv s → BucketsInv (s.setCtx ch d)) : Steady s (s.setCtx ch d) :=
  steady_moved (v := s.eng.buckets) hc same buckets

theorem modes_setCtx {s : State} {ch : Chan} {c d : Context} (hc : s.chan[ch] = some c)
    (closing : d.state = .closing ↔ c.state = .closing) (h : ModeInv s) : ModeInv (s.setCtx ch d) := by
  obtain ⟨setup, drain, held, closed⟩ := h
  refine ⟨fun m => ?_, fun m => ⟨ch, by rw [setCtx_chan_self]; simp⟩, fun g e hp => ?_, fun e x hx hs => ?_⟩
  · exact absurd (hc.symm.trans (setup m ch)) (by simp)
  · obtain ⟨x, hx, hs⟩ := held g e hp
    by_cases he : e = ch
    · subst he
      cases hc.symm.trans hx
      exact ⟨d, setCtx_chan_self e d s, closing.mpr hs⟩
    · exact ⟨x, (setCtx_chan_other ch d s he).trans hx, hs⟩
  · rw [setCtx_chan_at] at hx
    split at hx
    · next he =>
      subst he
      cases hx
      exact closed e c hc (closing.mp hs)
    · exact closed e x hx hs

/-- A context written that stands as it did in the uplink phase. -/
theorem phaseIn_setCtx {s : State} {ch : Chan} {c d : Context} {late : Chan → Bool} {taken : Option Chan}
    (hc : s.chan[ch] = some c) (nUp : d.nUp = c.nUp) (blockLen : d.blockLen = c.blockLen) (fresh : d.fresh = c.fresh)
    (phiUp : d.phiUp = c.phiUp) (adjust : d.adjust = c.adjust) (h : PhaseIn late taken s) :
    PhaseIn late taken (s.setCtx ch d) := by
  obtain ⟨expected, raised, once, contexts⟩ := h
  refine ⟨expected, fun e => (raised e).trans (and_congr_right fun _ => ?_), once, ?_⟩
  · exact (exists_setCtx (fun x => x.nUp = x.blockLen) hc (by rw [nUp, blockLen]) e).symm
  · refine forall_setCtx (p := fun e x => x.InPhase (late e) s.hw.c) hc (fun k => ?_) contexts
    unfold Context.InPhase Context.AdjustSound at *
    rw [nUp, blockLen, fresh, phiUp, adjust]
    exact k

theorem encodeIn_setCtx {s : State} {ch : Chan} {c d : Context} {late : Chan → Bool} {taken : Option Chan}
    (hc : s.chan[ch] = some c) (nUp : d.nUp = c.nUp) (blockLen : d.blockLen = c.blockLen) (fresh : d.fresh = c.fresh)
    (phiUp : d.phiUp = c.phiUp) (adjust : d.adjust = c.adjust) (h : EncodeIn late taken s) :
    EncodeIn late taken (s.setCtx ch d) := by
  obtain ⟨phase, jobs, timely, once, made⟩ := h
  refine ⟨phaseIn_setCtx hc nUp blockLen fresh phiUp adjust phase, jobs, timely, once, fun e j hj own => ?_⟩
  exact (exists_setCtx (fun x => x.fresh = false ∧ j.deadline + 125000 *
    (if taken = some e then 0 else x.nUp + (late e).toNat) = s.hw.periodStart + 4000000) hc (by rw [nUp, fresh]) e).mpr
    (made e j hj own)

/-! ## CLOSE -/

/-- CLOSE takes an open channel to CLOSING and the idle processor holds it (R9, R176). -/
theorem keepsAll_close {s : State} {ch : Chan} (idle : s.ctl.proc = .idle) (free : s.ctl.answer = none)
    (open_ : s.chan[ch] ≠ none) (tag : Byte) :
    KeepsAll s (let s1 := s.modCtx ch fun c => { c with state := .closing }
      { s1 with ctl := { s1.ctl with proc := .holding tag ch } }) := by
  obtain ⟨c, hc⟩ := Option.ne_none_iff_exists'.mp open_
  dsimp only
  rw [modCtx_eq ch c s _ hc]
  have faults : c.FaultsSound → ({ c with state := .closing } : Context).FaultsSound := fun ⟨records, _, _⟩ =>
    ⟨records, fun hs => absurd hs (by simp), fun hs => absurd hs (by simp)⟩
  have steady := steady_setCtx (d := { c with state := .closing }) hc { faults := faults } fun h =>
    buckets_setCtx rfl (fun b => by rw [hc]; rfl) h
  refine
    { steady with
      control := fun h => ?_
      modes := fun h => ?_
      phase := fun late h => ?_
      encode := fun late h => ?_ }
  · rw [controlInv_iff] at *
    obtain ⟨rx, few, short, notices, flag, quiet, answering, line, _⟩ := h.1
    exact ⟨⟨rx, few, short, notices, flag, quiet, answering, line, fun _ _ _ => free⟩, h.2⟩
  · obtain ⟨setup, drain, _, closed⟩ := h
    refine ⟨fun m => absurd (hc.symm.trans (setup m ch)) (by simp), fun _ => ⟨ch, ?_⟩, fun g e hp => ?_, fun e x hx hs => ?_⟩
    · exact fun none => absurd ((setCtx_chan_self ch _ s).symm.trans none) (by simp)
    · cases hp
      exact ⟨_, setCtx_chan_self ch _ s, rfl⟩
    · have hx : (s.setCtx ch { c with state := .closing }).chan[e] = some x := hx
      rw [setCtx_chan_at] at hx
      split at hx
      · next he => subst he; exact ⟨tag, rfl⟩
      · obtain ⟨g, hp⟩ := closed e x hx hs
        rw [idle] at hp
        cases hp
  · exact phaseIn_setCtx hc rfl rfl rfl rfl rfl h
  · exact encodeIn_setCtx hc rfl rfl rfl rfl rfl h

/-! ## The end of a call -/

/-- What holds of every open channel holds after one has become FREE. -/
theorem forall_unset {v : Vector (Option Context) 256} {ch : Chan} {p : Chan → Context → Prop}
    (h : ∀ (e : Chan) (x : Context), v[e] = some x → p e x) (e : Chan) (x : Context) (hx : (v.set ch none)[e] = some x) :
    p e x := by
  rw [set_getElem_fin] at hx
  split at hx
  · cases hx
  · exact h e x hx

/-- An entry of a map and its channel leave together. -/
theorem map_unset {n : Nat} {v : Vector (Option Chan) n} {table : Vector (Option Context) 256} {key : Context → Fin n}
    {ch : Chan} {c : Context} (hc : table[ch] = some c)
    (h : ∀ (k : Fin n) (e : Chan), v[k] = some e ↔ ∃ x, table[e] = some x ∧ key x = k) (k : Fin n) (e : Chan) :
    (v.set (key c) none)[k] = some e ↔ ∃ x, (table.set ch none)[e] = some x ∧ key x = k := by
  have own : v[key c] = some ch := (h _ _).mpr ⟨c, hc, rfl⟩
  rw [set_getElem_fin, set_getElem_fin]
  by_cases he : e = ch
  · subst he
    rw [if_pos rfl]
    refine ⟨fun hk => ?_, fun ⟨x, hx, _⟩ => by cases hx⟩
    split at hk
    · cases hk
    · next other =>
      obtain ⟨x, hx, rfl⟩ := (h k e).mp hk
      cases hc.symm.trans hx
      exact absurd rfl other
  · rw [if_neg he]
    by_cases hk : k = key c
    · subst hk
      rw [if_pos rfl, ← h, own]
      simp [Ne.symm he]
    · rw [if_neg hk, h]

theorem lowerBucket_at (a b : Bucket) (v : Vector Nat 16) :
    (lowerBucket a v)[b] = if b = a then v[a] - 1 else v[b] := set_getElem_fin v a b _

theorem raiseBucket_at (a b : Bucket) (n : Nat) (v : Vector Nat 16) :
    (raiseBucket a n v)[b] = if b = a then v[a] + n else v[b] := set_getElem_fin v a b _

/-- A bucket counts at least what one channel puts into it. -/
theorem bucketShare_le {s : State} (h : BucketsInv s) (ch : Chan) (b : Bucket) : bucketShare b s.chan[ch] ≤ s.eng.buckets[b] := by
  rw [h b]
  exact List.single_le_sum (by simp) _ (List.mem_map_of_mem (List.mem_finRange ch))

theorem buckets_release {s : State} {ch : Chan} {c : Context} (hc : s.chan[ch] = some c) (h : BucketsInv s) :
    BucketsInv (s.release ch c) := by
  refine buckets_setCtx (s := s) (ch := ch) (x := none) rfl (fun b => ?_) h
  have share := bucketShare_le h ch b
  have down := bucketShare_le h ch (bucketOf c.phiDn)
  have up := bucketShare_le h ch (bucketOf c.phiUp)
  show (lowerBucket (bucketOf c.phiUp) (lowerBucket (bucketOf c.phiDn) s.eng.buckets))[b] + _ = _
  rw [hc] at share down up ⊢
  rw [lowerBucket_at, lowerBucket_at, lowerBucket_at]
  simp only [bucketShare] at share down up ⊢
  by_cases hu : b = bucketOf c.phiUp <;> by_cases hd : b = bucketOf c.phiDn <;>
    simp_all [eq_comm] <;> omega

theorem steady_release {s : State} {ch : Chan} {c : Context} (hc : s.chan[ch] = some c) : Steady s (s.release ch c) where
  maps h := ⟨map_unset (key := Context.tag) hc h.1, map_unset (key := fun x => slotNo x.highway x.timeslot) hc h.2⟩
  faults h := forall_unset (p := fun _ x => x.FaultsSound) h
  playout h := forall_unset (p := fun _ x => x.PlayoutSound) h
  engines h := (quiet_dropChannel ch s).engines h
  buckets := buckets_release hc
  samples h := ⟨forall_unset (p := fun _ x => x.SamplesSound) h.1, ((quiet_dropChannel ch s).samples h).2⟩

theorem answerClose_touches (ch : Chan) (st : Stats) (s : State) :
    s.answerClose ch st = { s with ctl := (s.answerClose ch st).ctl } := by
  unfold State.answerClose
  split
  · rfl
  · split <;> rfl

theorem drainToSetup_touches (s : State) :
    s.drainToSetup = { s with mode := s.drainToSetup.mode, ctl := s.drainToSetup.ctl } := by
  unfold State.drainToSetup
  split <;> rfl

theorem steady_answerClose (ch : Chan) (st : Stats) (s : State) : Steady s (s.answerClose ch st) := by
  unfold State.answerClose
  split
  · exact .refl s
  · split
    · exact
        { control := fun h => by
            rw [controlInv_iff] at *
            obtain ⟨⟨rx, few, short, notices, flag, quiet, answering, line, _⟩, rest⟩ := h
            exact ⟨ControlLine.Sound.placeAnswer (ctl := { s.ctl with proc := .idle })
              ⟨rx, few, short, notices, flag, quiet, answering, line, fun _ _ hp => by cases hp⟩ rfl _, rest⟩ }
    · exact .refl s

theorem steady_drainToSetup (s : State) : Steady s s.drainToSetup := by
  unfold State.drainToSetup
  split
  · exact Steady.trans (t := { s with mode := .setup }) {} (quiet_notify _ _).keeps.toSteady
  · exact .refl s

/-- The close of a channel completed, after its END frame has been placed (R13, R22, R176). -/
def State.closed (ch : Chan) (c : Context) (s : State) : State := ((s.release ch c).answerClose ch c.stats).drainToSetup

/-- Beside the control line and the mode, the completed close is the release. -/
theorem closed_touches (ch : Chan) (c : Context) (s : State) :
    s.closed ch c = { s.release ch c with mode := (s.closed ch c).mode, ctl := (s.closed ch c).ctl } := by
  unfold State.closed
  rw [drainToSetup_touches, answerClose_touches]

theorem closed_chan (ch : Chan) (c : Context) (s : State) : (s.closed ch c).chan = s.chan.set ch none := by
  rw [closed_touches]
  rfl

theorem drainToSetup_proc (s : State) : s.drainToSetup.ctl.proc = s.ctl.proc := by
  unfold State.drainToSetup
  split
  · exact choose_proc _
  · rfl

theorem answerClose_proc {ch : Chan} {st : Stats} {s : State} {g : Byte} (h : s.ctl.proc = .holding g ch) :
    (s.answerClose ch st).ctl.proc = .idle := by
  unfold State.answerClose
  rw [h]
  dsimp only
  rw [if_pos rfl]
  exact choose_proc _

theorem drainToSetup_mode (s : State) : s.drainToSetup.mode =
    if s.mode = .drain ∧ (∀ ch : Chan, s.chan[ch] = none) then .setup else s.mode := by
  unfold State.drainToSetup
  simp only [Bool.and_eq_true, decide_eq_true_eq, openChannels_isEmpty_iff]
  split <;> rfl

theorem closed_mode (ch : Chan) (c : Context) (s : State) : (s.closed ch c).mode =
    if s.mode = .drain ∧ (∀ e : Chan, (s.chan.set ch none)[e] = none) then .setup else s.mode := by
  unfold State.closed
  rw [drainToSetup_mode, answerClose_touches]
  rfl

theorem modes_closed {s : State} {ch : Chan} {c : Context} (hc : s.chan[ch] = some c) (closing : c.state = .closing)
    (h : ModeInv s) : ModeInv (s.closed ch c) := by
  obtain ⟨setup, drain, held, closed⟩ := h
  obtain ⟨g, holding⟩ := closed ch c hc closing
  have idle : (s.closed ch c).ctl.proc = .idle :=
    (drainToSetup_proc _).trans (answerClose_proc (s := s.release ch c) holding)
  unfold ModeInv
  rw [closed_chan, closed_mode, idle]
  refine ⟨fun m => ?_, fun m => ?_, fun _ _ hp => absurd hp (by simp), fun e x hx hs => ?_⟩
  · split at m
    · next last => exact last.2
    · exact absurd (hc.symm.trans (setup m ch)) (by simp)
  · split at m
    · cases m
    · next more => exact not_forall.mp fun none => more ⟨m, none⟩
  · rw [set_getElem_fin] at hx
    split at hx
    · cases hx
    · next other =>
      obtain ⟨g', hp⟩ := closed e x hx hs
      rw [holding] at hp
      cases hp
      exact absurd rfl other

theorem keeps_closed {s : State} {ch : Chan} {c : Context} (hc : s.chan[ch] = some c) (closing : c.state = .closing) :
    Keeps s (s.closed ch c) :=
  { ((steady_release hc).trans (steady_answerClose ch c.stats _)).trans (steady_drainToSetup _) with
    modes := modes_closed hc closing }

/-- The boundary of a channel in the uplink phase is over once the channel is FREE. -/
theorem phaseIn_release {s : State} {ch : Chan} {c : Context} {late : Chan → Bool} (h : PhaseIn late (some ch) s) :
    PhaseIn late none (s.release ch c) := by
  obtain ⟨expected, raised, once, contexts⟩ := h
  refine ⟨expected, fun e => ?_, once.filter _, forall_unset (p := fun e x => x.InPhase (late e) s.hw.c) contexts⟩
  show .uplink e ∈ withoutCycle ch s.due ↔ _ ∧ ∃ x, (s.chan.set ch none)[e] = some x ∧ _
  rw [set_getElem_fin]
  by_cases he : e = ch
  · subst he
    simp [withoutCycle]
  · rw [if_neg he]
    simp [withoutCycle, raised, he, Ne.symm he]

theorem encodeIn_release {s : State} {ch : Chan} {c : Context} {late : Chan → Bool} (h : EncodeIn late (some ch) s)
    (alone : ∀ j, s.eng.Holds j → j.isEncodeOf ch = false) : EncodeIn late none (s.release ch c) := by
  obtain ⟨phase, jobs, timely, once, made⟩ := h
  have dropped := quiet_dropChannel ch s
  refine ⟨phaseIn_release phase, dropped.engines jobs, dropped.timely timely,
    fun e => (dropped.encodes e).trans (once e), fun e j hj own => ?_⟩
  have before : s.eng.Holds j := (EngineBlock.Less.dropChannel ch s.eng).holds hj
  have other : e ≠ ch := fun same => by
    subst same
    rw [alone j before] at own
    cases own
  obtain ⟨x, hx, settled, deadline⟩ := made e j before own
  refine ⟨x, (set_getElem_fin_other s.chan ch e none other).trans hx, settled, ?_⟩
  rw [if_neg (by simpa using other.symm)] at deadline
  exact deadline

theorem phaseIn_closed {s : State} {ch : Chan} {c : Context} {late : Chan → Bool} (h : PhaseIn late (some ch) s) :
    PhaseIn late none (s.closed ch c) := by
  rw [closed_touches]
  exact phaseIn_release (c := c) h

theorem encodeIn_closed {s : State} {ch : Chan} {c : Context} {late : Chan → Bool} (h : EncodeIn late (some ch) s)
    (alone : ∀ j, s.eng.Holds j → j.isEncodeOf ch = false) : EncodeIn late none (s.closed ch c) := by
  rw [closed_touches]
  exact encodeIn_release (c := c) h alone

end Sys2Proof.Machine
end

section
/-! PROOF. The uplink boundary keeps every invariant (R10 to R14, R108): the ENCODE job is its channel's only one, and the
block that begins leads to the next C = φup. -/

namespace Sys2Proof.Machine

/-! ## The ENCODE job of a boundary -/

theorem isEncodeOf_iff (ch : Chan) (j : Job) : j.isEncodeOf ch = true ↔ j.chan = ch ∧ j.kind = .encode := by
  simp [Job.isEncodeOf]

section submit
variable {s : State} {ch : Chan} {c : Context}

/-- The engines once the ENCODE job of a boundary has come to wait. -/
def State.withEncode (ch : Chan) (c : Context) (s : State) : State :=
  { s with eng := s.eng.joins (c.encodeJobAt ch s.hw.periodStart) }

theorem submitEncode_eq : s.submit (c.encodeJobAt ch s.hw.periodStart) s.hw.periodStart =
    (s.withEncode ch c).dispatch s.hw.periodStart := rfl

theorem calm_submitEncode :
    Calm (s.withEncode ch c) (s.submit (c.encodeJobAt ch s.hw.periodStart) s.hw.periodStart) :=
  calm_dispatch _ _ le_rfl

theorem ordered_withEncode (h : s.eng.Ordered s.hw.periodStart) :
    (s.withEncode ch c).eng.Ordered s.hw.periodStart :=
  ordered_joins (show (s.hw.periodStart + 4000000) % 125000 = _ by omega) (fun hk => absurd hk (by simp [Context.encodeJobAt])) h

theorem isSample_encoderInput (h : c.SamplesSound) : ∀ x ∈ c.encoderInput, IsSample x := fun x hx =>
  h.1 x (List.mem_of_mem_take (List.mem_reverse.mp hx))

theorem engines_submitEncode (h : EnginesInv s) :
    EnginesInv (s.submit (c.encodeJobAt ch s.hw.periodStart) s.hw.periodStart) := by
  rw [enginesInv_iff] at *
  have calm := calm_submitEncode (s := s) (ch := ch) (c := c)
  refine ⟨calm.expected h.1, ?_, noWait_dispatch _ _⟩
  rw [calm.periodStart]
  exact calm.ordered (ordered_withEncode h.2.1)

theorem keeps_submitEncode (hc : s.chan[ch] = some c) :
    Keeps s (s.submit (c.encodeJobAt ch s.hw.periodStart) s.hw.periodStart) :=
  have calm := calm_submitEncode (s := s) (ch := ch) (c := c)
  { profiles := calm.profiles
    maps := calm.maps
    egress := calm.egress
    control := calm.control
    faults := calm.faults
    engines := engines_submitEncode
    buckets := calm.bucketsInv
    playout := calm.playout
    samples := fun h => calm.samples ⟨h.1, samples_joins (isSample_encoderInput (h.1 ch c hc)) h.2⟩
    modes := calm.modes }

theorem encodeIn_submitEncode {late : Chan → Bool} (hc : s.chan[ch] = some c) (settled : c.fresh = false)
    (alone : ∀ j, s.eng.Holds j → j.isEncodeOf ch = false) (h : EncodeIn late (some ch) s) :
    EncodeIn late (some ch) (s.submit (c.encodeJobAt ch s.hw.periodStart) s.hw.periodStart) := by
  have calm := calm_submitEncode (s := s) (ch := ch) (c := c)
  obtain ⟨phase, jobs, timely, once, made⟩ := h
  have waits : ∀ j ∈ (s.withEncode ch c).eng.queue, s.hw.periodStart ≤ j.deadline := fun j hj => by
    rcases (mem_insertJob _ j _).mp hj with rfl | hj
    · exact Nat.le_add_right _ _
    · exact timely.1 j hj
  have one : ∀ e, (s.withEncode ch c).eng.held (Job.isEncodeOf e) ≤ 1 := fun e => by
    refine (held_joins _).trans_le ?_
    split
    · next own =>
      have same : ch = e := ((isEncodeOf_iff e _).mp own).1
      rw [← same, held_eq_zero alone]
    · exact once e
  refine ⟨calm.phaseIn (s := s.withEncode ch c) phase, engines_submitEncode jobs,
    calm.timely (s := s.withEncode ch c) ⟨waits, timely.2⟩, fun e => (calm.encodes e).trans (one e), fun e j hj own => ?_⟩
  have encode := ((isEncodeOf_iff e j).mp own).2
  have before : ∃ x, s.chan[e] = some x ∧ x.fresh = false ∧ j.deadline + 125000 *
      (if some ch = some e then 0 else x.nUp + (late e).toNat) = s.hw.periodStart + 4000000 := by
    rcases holds_joins.mp (calm.holds j encode hj) with rfl | hj
    · have same : ch = e := ((isEncodeOf_iff e _).mp own).1
      subst same
      exact ⟨c, hc, settled, by rw [if_pos rfl]; rfl⟩
    · exact made e j hj own
  obtain ⟨x, hx, settled, deadline⟩ := before
  obtain ⟨y, hy, same⟩ := calm.open_ hx
  exact ⟨y, hy, same.fresh.trans settled, by rw [same.nUp, calm.periodStart]; exact deadline⟩

end submit

/-- At a full block no ENCODE job of the channel waits or runs any more: the last was made 120 periods ago or earlier, and
its deadline has been passed (R11, R120). -/
theorem no_encode_at_boundary {late : Chan → Bool} {s : State} {ch : Chan} {c : Context} (h : EncodeIn late none s)
    (hc : s.chan[ch] = some c) (full : c.nUp = c.blockLen) : ∀ j, s.eng.Holds j → j.isEncodeOf ch = false := by
  obtain ⟨phase, jobs, timely, _, made⟩ := h
  obtain ⟨_, least, _⟩ := phase.2.2.2 ch c hc
  refine fun j hj => Bool.eq_false_iff.mpr fun own => ?_
  obtain ⟨x, hx, _, deadline⟩ := made ch j hj own
  cases hc.symm.trans hx
  rw [if_neg (by simp)] at deadline
  rcases hj with hq | ⟨e, r, hr, rfl⟩
  · have := timely.1 j hq
    omega
  · have := timely.2 e r hr
    have := (jobs.2.2.2.1 e r hr).2
    omega

/-! ## The next block settled -/

/-- The context of a boundary once the next block is settled (R10 steps 3 and 4). -/
def Context.nextBlock (c : Context) : Context := { c.applyAdjust with nUp := 0 }

theorem nextBlock_fields (c : Context) : c.nextBlock.tag = c.tag ∧ c.nextBlock.highway = c.highway ∧
    c.nextBlock.timeslot = c.timeslot ∧ c.nextBlock.phiDn = c.phiDn ∧ c.nextBlock.fresh = c.fresh ∧
    c.nextBlock.state = c.state := by
  unfold Context.nextBlock Context.applyAdjust
  split
  · exact ⟨rfl, rfl, rfl, rfl, rfl, rfl⟩
  · dsimp only
    split <;> exact ⟨rfl, rfl, rfl, rfl, rfl, rfl⟩

theorem steady_nextBlock (c : Context) : c.Steady c.nextBlock := by
  unfold Context.nextBlock Context.applyAdjust
  split
  · exact {}
  · dsimp only
    split <;> exact {}

/-- A block that begins and leads to the next C = φup. -/
theorem inPhase_begun {d : Context} {now : Phase} (nUp : d.nUp = 0) (least : 120 ≤ d.blockLen) (most : d.blockLen ≤ 200)
    (fresh : d.fresh = false) (phase : (now.val + d.blockLen) % 160 = d.phiUp.val) (adjust : d.AdjustSound) :
    d.InPhase false now ∧ d.nUp ≠ d.blockLen := by
  refine ⟨⟨by omega, least, most, fun _ => by omega, ?_, adjust⟩, by omega⟩
  rw [fresh, nUp]
  simpa using phase

/-- The block that begins at a boundary leads to the next C = φup. -/
theorem inPhase_nextBlock {late : Bool} {now : Phase} {c : Context} (h : c.InPhase late now) (full : c.nUp = c.blockLen) :
    c.nextBlock.InPhase late now ∧ c.nextBlock.nUp ≠ c.nextBlock.blockLen := by
  obtain ⟨fits, least, most, short, phase, adjust⟩ := h
  have settled : c.fresh = false := Bool.eq_false_iff.mpr fun fresh => absurd full (short (.inl fresh)).ne
  have prompt : late = false := Bool.eq_false_iff.mpr fun late => absurd full (short (.inr late)).ne
  subst prompt
  rw [settled] at phase
  simp only [Bool.false_eq_true, if_false, Nat.zero_add, Nat.add_zero, full, Nat.sub_self] at phase
  have now_lt := now.isLt
  have phi_lt := c.phiUp.isLt
  unfold Context.nextBlock Context.applyAdjust
  split
  · refine inPhase_begun rfl ?_ ?_ settled ?_ adjust
    · show 120 ≤ 160
      decide
    · show 160 ≤ 200
      decide
    · show (now.val + 160) % 160 = c.phiUp.val
      omega
  · next a ha =>
    obtain ⟨_, few⟩ := adjust a ha
    dsimp only
    split
    · refine inPhase_begun rfl ?_ ?_ settled ?_ fun b hb => by cases hb
      · show 120 ≤ 160 - a.k
        omega
      · show 160 - a.k ≤ 200
        omega
      · show (now.val + (160 - a.k)) % 160 = (c.phiUp.val + 160 - a.k) % 160
        omega
    · refine inPhase_begun rfl ?_ ?_ settled ?_ fun b hb => by cases hb
      · show 120 ≤ 160 + a.k
        omega
      · show 160 + a.k ≤ 200
        omega
      · show (now.val + (160 + a.k)) % 160 = (c.phiUp.val + a.k) % 160
        omega

theorem uplinkFinish_eq {s : State} {ch : Chan} {c : Context} (hc : s.chan[ch] = some c) :
    s.uplinkFinish ch = { s.setCtx ch c.nextBlock with
      eng := { s.eng with buckets := moveBucket (bucketOf c.phiUp) (bucketOf c.nextBlock.phiUp) s.eng.buckets } } := by
  unfold State.uplinkFinish
  rw [hc]
  rfl

theorem uplinkFinish_of_free {s : State} {ch : Chan} (hc : s.chan[ch] = none) : s.uplinkFinish ch = s := by
  unfold State.uplinkFinish
  rw [hc]

theorem moveBucket_at (a b x : Bucket) (v : Vector Nat 16) (pos : 1 ≤ v[a]) :
    (moveBucket a b v)[x] + (if a = x then 1 else 0) = v[x] + if b = x then 1 else 0 := by
  unfold moveBucket
  split
  · next same => subst same; rfl
  · next other =>
    rw [raiseBucket_at, lowerBucket_at, lowerBucket_at]
    by_cases hb : x = b
    · subst hb
      simp [other, Ne.symm other]
    · by_cases ha : x = a
      · subst ha
        rw [if_neg hb, if_pos rfl, if_pos rfl, if_neg (Ne.symm hb)]
        omega
      · simp [ha, hb, Ne.symm ha, Ne.symm hb]

theorem keeps_uplinkFinish (ch : Chan) (s : State) : Keeps s (s.uplinkFinish ch) := by
  cases hc : s.chan[ch] with
  | none => rw [uplinkFinish_of_free hc]; exact .refl s
  | some c =>
    rw [uplinkFinish_eq hc]
    obtain ⟨_, _, _, down, _, state⟩ := nextBlock_fields c
    refine { steady_moved hc (steady_nextBlock c) fun h => ?_ with modes := modes_setCtx hc (by rw [state]) }
    refine buckets_setCtx (s := s) (ch := ch) (x := some c.nextBlock) rfl (fun b => ?_) h
    have pos := bucketShare_le h ch (bucketOf c.phiUp)
    rw [hc] at pos ⊢
    simp only [bucketShare, if_true] at pos ⊢
    have moved := moveBucket_at (bucketOf c.phiUp) (bucketOf c.nextBlock.phiUp) b s.eng.buckets (by omega)
    rw [down]
    omega

/-- A channel, if open, has its block full. -/
def Full (ch : Chan) (s : State) : Prop := ∀ c, s.chan[ch] = some c → c.nUp = c.blockLen

theorem Calm.full {s t : State} (h : Calm s t) {ch : Chan} (k : Full ch s) : Full ch t := fun d hd => by
  obtain ⟨c, hc, calm⟩ := h.before hd
  rw [calm.nUp, calm.blockLen, k c hc]

/-- With the channel FREE its boundary is over. -/
theorem phaseIn_of_free {late : Chan → Bool} {s : State} {ch : Chan} (hc : s.chan[ch] = none)
    (h : PhaseIn late (some ch) s) : PhaseIn late none s := by
  obtain ⟨expected, raised, once, contexts⟩ := h
  refine ⟨expected, fun e => (raised e).trans ⟨fun ⟨_, x⟩ => ⟨by simp, x⟩, fun ⟨_, x⟩ => ⟨fun same => ?_, x⟩⟩, once, contexts⟩
  obtain ⟨c, hx, _⟩ := x
  cases same
  exact absurd (hc.symm.trans hx) (by simp)

theorem encodeIn_of_free {late : Chan → Bool} {s : State} {ch : Chan} (hc : s.chan[ch] = none)
    (h : EncodeIn late (some ch) s) : EncodeIn late none s := by
  obtain ⟨phase, jobs, timely, once, made⟩ := h
  refine ⟨phaseIn_of_free hc phase, jobs, timely, once, fun e j hj own => ?_⟩
  obtain ⟨x, hx, settled, deadline⟩ := made e j hj own
  refine ⟨x, hx, settled, ?_⟩
  rw [if_neg fun same => absurd (hc.symm.trans (Option.some.inj same ▸ hx)) (by simp)] at deadline
  rw [if_neg (by simp)]
  exact deadline

theorem phaseIn_uplinkFinish {late : Chan → Bool} {s : State} {ch : Chan} (full : Full ch s)
    (h : PhaseIn late (some ch) s) : PhaseIn late none (s.uplinkFinish ch) := by
  cases hc : s.chan[ch] with
  | none => rw [uplinkFinish_of_free hc]; exact phaseIn_of_free hc h
  | some c =>
    rw [uplinkFinish_eq hc]
    obtain ⟨expected, raised, once, contexts⟩ := h
    obtain ⟨next, begun⟩ := inPhase_nextBlock (contexts ch c hc) (full c hc)
    refine ⟨expected, fun e => (raised e).trans ?_, once,
      forall_setCtx (p := fun e x => x.InPhase (late e) s.hw.c) hc (fun _ => next) contexts⟩
    show _ ↔ _ ∧ ∃ x, (s.setCtx ch c.nextBlock).chan[e] = some x ∧ _
    rw [setCtx_chan_at]
    by_cases he : e = ch
    · subst he
      simp [begun]
    · simp [he, Ne.symm he]

theorem encodeIn_uplinkFinish {late : Chan → Bool} {s : State} {ch : Chan} (full : Full ch s)
    (h : EncodeIn late (some ch) s) : EncodeIn late none (s.uplinkFinish ch) := by
  cases hc : s.chan[ch] with
  | none => rw [uplinkFinish_of_free hc]; exact encodeIn_of_free hc h
  | some c =>
    have phase := phaseIn_uplinkFinish full h.1
    rw [uplinkFinish_eq hc] at phase ⊢
    obtain ⟨old, jobs, timely, once, made⟩ := h
    obtain ⟨_, _, _, _, fresh, _⟩ := nextBlock_fields c
    refine ⟨phase, jobs, timely, once, fun e j hj own => ?_⟩
    obtain ⟨x, hx, settled, deadline⟩ := made e j hj own
    show ∃ x, (s.setCtx ch c.nextBlock).chan[e] = some x ∧ _ ∧
      j.deadline + 125000 * (x.nUp + (late e).toNat) = s.hw.periodStart + 4000000
    rw [setCtx_chan_at]
    by_cases he : e = ch
    · subst he
      cases hc.symm.trans hx
      have prompt : late e = false := by
        obtain ⟨_, _, _, short, _⟩ := old.2.2.2 e c hc
        exact Bool.eq_false_iff.mpr fun late => absurd (full c hc) (short (.inr late)).ne
      refine ⟨c.nextBlock, if_pos rfl, fresh.trans settled, ?_⟩
      rw [if_pos rfl] at deadline
      rw [prompt]
      exact deadline
    · rw [if_neg fun same => he (Option.some.inj same).symm] at deadline
      exact ⟨x, (if_neg he).trans hx, settled, deadline⟩

end Sys2Proof.Machine
end

section
/-! PROOF. Taking an uplink boundary that has been raised keeps every invariant (R10 to R14). -/

namespace Sys2Proof.Machine

theorem quiet_settleRate {s : State} {ch : Chan} {c : Context} (hc : s.chan[ch] = some c) (rs : RateSet) :
    Quiet s (s.setCtx ch (c.settleRate rs)) := quiet_setCtx hc {} id

theorem quiet_faultUplink (ch : Chan) (s : State) : Quiet s (s.faultUplink ch) := by
  unfold State.faultUplink
  cases s.chan[ch] with
  | none => exact .refl s
  | some c =>
    refine Quiet.trans ?_ (quiet_faultFrames _ _)
    split
    · exact quiet_placeFrame ch _ _ _ s
    · exact .refl s

theorem quiet_echoFaultFrame (ch : Chan) (s : State) : Quiet s (s.echoFaultFrame ch) := by
  unfold State.echoFaultFrame
  cases s.chan[ch] with
  | none => exact .refl s
  | some c =>
    dsimp only
    split
    · exact .refl s
    · exact quiet_link (lp := s.link.setEcho ch c.upEcho) s fun h => h.setEcho ch c.upEcho

/-- A close completed at a boundary: the END frame placed, then the release of what the channel holds by then. -/
theorem completeClose_eq {s : State} {ch : Chan} {d : Context} (hd : (s.placeFrame ch .endCall none []).chan[ch] = some d) :
    s.completeClose ch = (s.placeFrame ch .endCall none []).closed ch d := by
  unfold State.completeClose
  dsimp only
  rw [hd]
  rfl

theorem uplinkBoundary_of_free {s : State} {ch : Chan} (hc : s.chan[ch] = none) : s.uplinkBoundary ch = s := by
  unfold State.uplinkBoundary
  rw [hc]

/-- An uplink boundary, by the state of the channel. -/
inductive BoundaryRun (ch : Chan) (s : State) : State → Prop where
  /-- ALIGNING and ACTIVE: an ENCODE job is submitted. -/
  | encode {c : Context} (hc : s.chan[ch] = some c) :
      BoundaryRun ch s ((s.submit (c.encodeJobAt ch s.hw.periodStart) s.hw.periodStart).uplinkFinish ch)
  /-- FAULTED: the frame OUT_UP calls for is placed, and takes the echo. -/
  | faulted : BoundaryRun ch s (((s.faultUplink ch).uplinkFinish ch).echoFaultFrame ch)
  /-- CLOSING: the close completes. -/
  | closing {d : Context} (hd : (s.placeFrame ch .endCall none []).chan[ch] = some d) (closing : d.state = .closing) :
      BoundaryRun ch s ((s.placeFrame ch .endCall none []).closed ch d)

theorem boundaryRun {s : State} {ch : Chan} {c : Context} (hc : s.chan[ch] = some c) :
    BoundaryRun ch (s.setCtx ch (c.settleRate (s.profileOf c).rateSet)) (s.uplinkBoundary ch) := by
  unfold State.uplinkBoundary
  rw [hc]
  dsimp only
  change BoundaryRun ch _ (if c.state = .faulted then
      (((s.setCtx ch (c.settleRate (s.profileOf c).rateSet)).uplinkByState ch).uplinkFinish ch).echoFaultFrame ch
    else ((s.setCtx ch (c.settleRate (s.profileOf c).rateSet)).uplinkByState ch).uplinkFinish ch)
  generalize hd : c.settleRate (s.profileOf c).rateSet = d
  have state : d.state = c.state := by rw [← hd]; rfl
  have open_ := setCtx_chan_self ch d s
  generalize s.setCtx ch d = t at open_
  unfold State.uplinkByState
  rw [open_, ← state]
  dsimp only
  cases hs : d.state with
  | aligning | active =>
    rw [if_neg (by decide)]
    exact .encode open_
  | faulted =>
    rw [if_pos rfl]
    exact .faulted
  | closing =>
    rw [if_neg (by decide)]
    obtain ⟨x, hx, same⟩ := (quiet_placeFrame ch .endCall none [] t).open_ open_
    have run := BoundaryRun.closing (s := t) hx (same.closing.mpr hs)
    dsimp only
    rw [completeClose_eq hx, uplinkFinish_of_free]
    · exact run
    · rw [closed_chan, set_getElem_fin_self]

theorem BoundaryRun.keeps {ch : Chan} {s t : State} (h : BoundaryRun ch s t) : Keeps s t := by
  cases h with
  | encode hc => exact (keeps_submitEncode hc).trans (keeps_uplinkFinish ch _)
  | faulted => exact ((quiet_faultUplink ch s).keeps.trans (keeps_uplinkFinish ch _)).trans (quiet_echoFaultFrame ch _).keeps
  | closing hd closing => exact (quiet_placeFrame ch _ _ _ s).keeps.trans (keeps_closed hd closing)

theorem BoundaryRun.phaseIn {ch : Chan} {s t : State} (h : BoundaryRun ch s t) {late : Chan → Bool} (full : Full ch s)
    (k : PhaseIn late (some ch) s) : PhaseIn late none t := by
  cases h with
  | @encode c hc =>
    have calm := calm_submitEncode (s := s) (ch := ch) (c := c)
    exact phaseIn_uplinkFinish (calm.full (s := s.withEncode ch c) full) (calm.phaseIn (s := s.withEncode ch c) k)
  | faulted =>
    have quiet := quiet_faultUplink ch s
    exact (quiet_echoFaultFrame ch _).phaseIn (phaseIn_uplinkFinish (quiet.full full) (quiet.phaseIn k))
  | closing hd closing => exact phaseIn_closed ((quiet_placeFrame ch _ _ _ s).phaseIn k)

theorem BoundaryRun.encodeIn {ch : Chan} {s t : State} (h : BoundaryRun ch s t) {late : Chan → Bool} (full : Full ch s)
    (alone : ∀ j, s.eng.Holds j → j.isEncodeOf ch = false) (k : EncodeIn late (some ch) s) : EncodeIn late none t := by
  cases h with
  | @encode c hc =>
    have calm := calm_submitEncode (s := s) (ch := ch) (c := c)
    have settled : c.fresh = false := by
      obtain ⟨_, _, _, short, _⟩ := k.1.2.2.2 ch c hc
      exact Bool.eq_false_iff.mpr fun fresh => absurd (full c hc) (short (.inl fresh)).ne
    exact encodeIn_uplinkFinish (calm.full (s := s.withEncode ch c) full) (encodeIn_submitEncode hc settled alone k)
  | faulted =>
    have quiet := quiet_faultUplink ch s
    have echo := quiet_echoFaultFrame ch ((s.faultUplink ch).uplinkFinish ch)
    exact echo.encodeIn echo.engines (encodeIn_uplinkFinish (quiet.full full) (quiet.encodeIn quiet.engines k))
  | closing hd closing =>
    have quiet := quiet_placeFrame ch .endCall none [] s
    refine encodeIn_closed (quiet.encodeIn quiet.engines k) fun j hj => Bool.eq_false_iff.mpr fun own => ?_
    have before := alone j (quiet.holds j ((isEncodeOf_iff ch j).mp own).2 hj)
    rw [before] at own
    cases own

/-! ## The event taken -/

/-- The event taken out of those raised: the boundary of its channel is under way. -/
theorem phaseIn_taken {late : Chan → Bool} {s : State} {ch : Chan} (h : PhaseIn late none s) :
    PhaseIn late (some ch) { s with due := s.due.filter fun x => x ≠ .uplink ch } := by
  obtain ⟨expected, raised, once, contexts⟩ := h
  refine ⟨expected, fun e => ?_, once, contexts⟩
  show .uplink e ∈ s.due.filter _ ↔ _
  rw [List.mem_filter, raised]
  simp only [ne_eq, reduceCtorEq, not_false_eq_true, true_and, decide_eq_true_eq, Due.uplink.injEq, Option.some.injEq]
  rw [and_comm, eq_comm]

theorem keepsAll_takeUplink {s : State} {ch : Chan} (due : .uplink ch ∈ s.due) : KeepsAll s (s.takeEvent (.uplink ch)) := by
  have unraised : Keeps s { s with due := s.due.filter fun x => x ≠ .uplink ch } := {}
  unfold State.takeEvent
  dsimp only
  generalize hu : { s with due := s.due.filter fun x => x ≠ Due.uplink ch } = u at unraised ⊢
  cases hc : s.chan[ch] with
  | none =>
    have impossible : ∀ late, ¬ PhaseIn late none s := fun late k => by
      obtain ⟨_, c, hx, _⟩ := (k.2.1 ch).mp due
      exact absurd (hc.symm.trans hx) (by simp)
    rw [uplinkBoundary_of_free (by rw [← hu]; exact hc)]
    exact
      { unraised with
        phase := fun late k => absurd k (impossible late)
        encode := fun late k => absurd k.1 (impossible late) }
  | some c =>
    have hc' : u.chan[ch] = some c := by rw [← hu]; exact hc
    have run := boundaryRun hc'
    have rate := quiet_settleRate hc' (u.profileOf c).rateSet
    have full : ∀ late, PhaseIn late none s → c.nUp = c.blockLen := fun late k => by
      obtain ⟨_, x, hx, full⟩ := (k.2.1 ch).mp due
      cases hc.symm.trans hx
      exact full
    have filled : ∀ late, PhaseIn late none s → Full ch u := fun late k x hx => by
      cases hc'.symm.trans hx
      exact full late k
    refine
      { (unraised.trans rate.keeps).trans run.keeps with
        phase := fun late k => run.phaseIn (rate.full (filled late k)) (rate.phaseIn (hu ▸ phaseIn_taken k))
        encode := fun late k => ?_ }
    have alone := no_encode_at_boundary k hc (full late k.1)
    have taken : EncodeIn late (some ch) u := by
      obtain ⟨phase, jobs, timely, once, made⟩ := k
      subst hu
      refine ⟨phaseIn_taken phase, jobs, timely, once, fun e j hj own => ?_⟩
      obtain ⟨x, hx, settled, deadline⟩ := made e j hj own
      refine ⟨x, hx, settled, ?_⟩
      rw [if_neg (by simp)] at deadline
      rw [if_neg fun same => ?_]
      · exact deadline
      · cases same
        rw [alone j hj] at own
        cases own
    refine run.encodeIn (rate.full (filled late k.1)) (fun j hj => ?_) (rate.encodeIn rate.engines taken)
    subst hu
    exact alone j hj

theorem keepsAll_takeEvent {d : Due} {s : State} (due : d ∈ s.due) : KeepsAll s (s.takeEvent d) := by
  cases d with
  | uplink ch => exact keepsAll_takeUplink due
  | downlink ch => exact (quiet_takeEvent (d := .downlink ch) trivial s).keepsAll
  | blockStart ch => exact (quiet_takeEvent (d := .blockStart ch) trivial s).keepsAll
  | loadWindowEnd => exact (quiet_takeEvent (d := .loadWindowEnd) trivial s).keepsAll

theorem keepsAll_takeIfDue (d : Due) (s : State) : KeepsAll s (s.takeIfDue d) := by
  unfold State.takeIfDue
  split
  · next due => exact keepsAll_takeEvent due
  · exact .refl s

end Sys2Proof.Machine
end

section
/-! PROOF. What is left to do in a period when it ends: every invariant is kept, no uplink boundary is left over, no
deadline has been passed over and no completion is overdue (R27, R120, R124). -/

namespace Sys2Proof.Machine

/-! ## Nothing of the period left over -/

/-- No uplink boundary is left to take. -/
def State.BoundariesTaken (s : State) : Prop := ∀ ch : Chan, .uplink ch ∉ s.due

/-- Every waiting job has its deadline beyond this period start. -/
def State.DeadlinesTaken (s : State) : Prop := ∀ j ∈ s.eng.queue, s.hw.periodStart < j.deadline

/-- No running job should have completed before this period start. -/
def State.CompletionsTaken (s : State) : Prop :=
  ∀ (e : EngineNo) (r : Running), s.eng.engines[e] = some r → s.hw.periodStart ≤ r.done

namespace Calm
variable {s t : State}

theorem boundariesTaken (h : Calm s t) (k : s.BoundariesTaken) : t.BoundariesTaken := fun ch hd =>
  k ch ((h.uplink ch).mp hd)

theorem deadlinesTaken (h : Calm s t) (k : s.DeadlinesTaken) : t.DeadlinesTaken := fun j hj => by
  rw [h.periodStart]
  exact (h.waiting j hj).elim (k j) id

theorem completionsTaken (h : Calm s t) (k : s.CompletionsTaken) : t.CompletionsTaken := fun e r hr => by
  rw [h.periodStart]
  rcases h.running e r hr with ⟨r0, h0, same⟩ | later
  · exact same ▸ k e r0 h0
  · exact later

end Calm

/-! ## The events raised -/

theorem due_boundaryRun {ch e : Chan} {s t : State} (h : BoundaryRun ch s t) (hd : .uplink e ∈ t.due) :
    .uplink e ∈ s.due := by
  have finished : ∀ u : State, (u.uplinkFinish ch).due = u.due := fun u => by
    unfold State.uplinkFinish
    split <;> rfl
  cases h with
  | @encode c hc =>
    rw [finished] at hd
    exact ((calm_submitEncode (s := s) (ch := ch) (c := c)).uplink e).mp hd
  | faulted =>
    have hd := ((quiet_echoFaultFrame ch _).uplink e).mp hd
    rw [finished] at hd
    exact ((quiet_faultUplink ch s).uplink e).mp hd
  | closing =>
    rw [closed_touches] at hd
    exact ((quiet_placeFrame ch _ _ _ s).uplink e).mp (List.mem_of_mem_filter hd)

/-- An event taken leaves no uplink boundary that was not there, and not its own. -/
theorem due_takeIfDue {d : Due} {e : Chan} {s : State} (hd : .uplink e ∈ (s.takeIfDue d).due) :
    .uplink e ∈ s.due ∧ Due.uplink e ≠ d := by
  unfold State.takeIfDue at hd
  split at hd
  · next due =>
    have gentle : d.Gentle → .uplink e ∈ s.due ∧ Due.uplink e ≠ d := fun g =>
      ⟨((quiet_takeEvent g s).uplink e).mp hd, g.ne_uplink e⟩
    cases d with
    | downlink ch => exact gentle trivial
    | blockStart ch => exact gentle trivial
    | loadWindowEnd => exact gentle trivial
    | uplink ch =>
      have filtered : .uplink e ∈ s.due.filter fun x => x ≠ .uplink ch := by
        unfold State.takeEvent at hd
        dsimp only at hd
        cases hc : s.chan[ch] with
        | none => rw [uplinkBoundary_of_free (by exact hc)] at hd; exact hd
        | some c =>
          exact due_boundaryRun (boundaryRun (s := { s with due := s.due.filter fun x => x ≠ .uplink ch }) hc) hd
      obtain ⟨raised, other⟩ := List.mem_filter.mp filtered
      exact ⟨raised, by simpa using other⟩
  · next not => exact ⟨hd, fun same => not (same ▸ hd)⟩

/-- An event taken if it is due, with the rest of it. -/
def State.takeWhole (s : State) (d : Due) : State := (s.takeIfDue d).finish

theorem keepsAll_takeWhole (s : State) (d : Due) : KeepsAll s (s.takeWhole d) :=
  (keepsAll_takeIfDue d s).trans (quiet_finish _).keepsAll

theorem due_takeWhole {d : Due} {e : Chan} {s : State} (hd : .uplink e ∈ (s.takeWhole d).due) :
    .uplink e ∈ s.due ∧ Due.uplink e ≠ d := due_takeIfDue (((quiet_finish _).uplink e).mp hd)

theorem due_foldl_takeWhole {e : Chan} : ∀ (ds : List Due) {s : State}, .uplink e ∈ (ds.foldl State.takeWhole s).due →
    .uplink e ∈ s.due ∧ .uplink e ∉ ds
  | [], _, hd => ⟨hd, List.not_mem_nil⟩
  | d :: ds, s, hd => by
    obtain ⟨later, others⟩ := due_foldl_takeWhole ds (s := s.takeWhole d) hd
    obtain ⟨raised, other⟩ := due_takeWhole later
    exact ⟨raised, by simp [other, others]⟩

/-! ## The deadlines -/

theorem takeDeadline_queue (now : Nat) (ch : Chan) (kind : JobKind) (s : State) :
    (s.takeDeadline now ch kind).eng.queue.Sublist s.eng.queue ∧
      ∀ j ∈ (s.takeDeadline now ch kind).eng.queue, j.chan = ch → j.kind = kind → now < j.deadline := by
  unfold State.takeDeadline
  split
  · have left := queue_missJob ch kind { s with eng := s.eng.removeWaiting ch kind }
    refine ⟨left.trans List.filter_sublist, fun j hj own sort => ?_⟩
    have stays := (List.mem_filter.mp (left.subset hj)).2
    simp [own, sort] at stays
  · next none =>
    refine ⟨List.Sublist.refl _, fun j hj own sort => ?_⟩
    by_contra early
    exact none (List.any_eq_true.mpr ⟨j, hj, by simpa [own, sort] using early⟩)

theorem foldl_takeDeadline_queue (now : Nat) : ∀ (js : List Job) (s : State),
    (js.foldl (fun st (j : Job) => st.takeDeadline now j.chan j.kind) s).eng.queue.Sublist s.eng.queue ∧
      ∀ j ∈ (js.foldl (fun st (j : Job) => st.takeDeadline now j.chan j.kind) s).eng.queue, j ∈ js → now < j.deadline
  | [], s => ⟨List.Sublist.refl _, fun _ _ h => absurd h List.not_mem_nil⟩
  | k :: js, s => by
    obtain ⟨less, past⟩ := takeDeadline_queue now k.chan k.kind s
    obtain ⟨fewer, later⟩ := foldl_takeDeadline_queue now js (s.takeDeadline now k.chan k.kind)
    refine ⟨fewer.trans less, fun j hj hk => ?_⟩
    rcases List.mem_cons.mp hk with rfl | hk
    · exact past j (fewer.subset hj) rfl rfl
    · exact later j hj hk

/-- Once the deadlines of an instant are taken, no waiting job has one by it (R120). -/
theorem deadline_of_takeDeadlines {now : Nat} {s : State} {j : Job} (hj : j ∈ (s.takeDeadlines now).eng.queue) :
    now < j.deadline := by
  obtain ⟨less, past⟩ := foldl_takeDeadline_queue now (s.eng.queue.filter fun j => j.deadline ≤ now) s
  by_contra early
  exact early (past j hj (List.mem_filter.mpr ⟨less.subset hj, by simpa using early⟩))

/-! ## The completions -/

/-- The engines whose jobs should have completed before this period start. -/
def State.overdue (s : State) : Finset EngineNo :=
  Finset.univ.filter fun e => (s.eng.engines[e]).any fun r => r.done < s.hw.periodStart

theorem mem_overdue (s : State) (e : EngineNo) :
    e ∈ s.overdue ↔ ∃ r, s.eng.engines[e] = some r ∧ r.done < s.hw.periodStart := by
  unfold State.overdue
  rw [Finset.mem_filter]
  cases s.eng.engines[e] with
  | none => simp
  | some r => simp

theorem completionsTaken_iff (s : State) : s.CompletionsTaken ↔ s.overdue = ∅ := by
  rw [Finset.eq_empty_iff_forall_notMem]
  refine ⟨fun h e he => ?_, fun h e r hr => ?_⟩
  · obtain ⟨r, hr, late⟩ := (mem_overdue s e).mp he
    have := h e r hr
    omega
  · by_contra late
    exact h e ((mem_overdue s e).mpr ⟨r, hr, by omega⟩)

/-- One engine looked at in the search for the job that completes first. -/
def EngineBlock.earlier (t : Nat) (eng : EngineBlock) (best : Option (EngineNo × Nat)) (e : EngineNo) :
    Option (EngineNo × Nat) :=
  match eng.engines[e] with
  | none => best
  | some r =>
    match best with
    | none => if r.done < t then some (e, r.done) else none
    | some (_, d) => if r.done < d then some (e, r.done) else best

theorem firstBefore_eq (t : Nat) (eng : EngineBlock) :
    eng.firstBefore t = (([0, 1, 2, 3] : List EngineNo).foldl (eng.earlier t) none).map Prod.fst := rfl

/-- What the search has found among the engines looked at. -/
def Earliest (t : Nat) (eng : EngineBlock) (seen : List EngineNo) : Option (EngineNo × Nat) → Prop
  | none => ∀ e ∈ seen, ∀ r, eng.engines[e] = some r → t ≤ r.done
  | some (e, d) => (∃ r, eng.engines[e] = some r ∧ r.done = d) ∧ d < t ∧
      ∀ e ∈ seen, ∀ r, eng.engines[e] = some r → d ≤ r.done

theorem earliest_earlier {t : Nat} {eng : EngineBlock} {seen : List EngineNo} {best : Option (EngineNo × Nat)}
    (h : Earliest t eng seen best) (e : EngineNo) : Earliest t eng (e :: seen) (eng.earlier t best e) := by
  unfold EngineBlock.earlier
  cases he : eng.engines[e] with
  | none =>
    have here : ∀ r, eng.engines[e] ≠ some r := fun r hr => absurd (he.symm.trans hr) (by simp)
    cases best with
    | none => exact List.forall_mem_cons.mpr ⟨fun r hr => absurd hr (here r), h⟩
    | some p => exact ⟨h.1, h.2.1, List.forall_mem_cons.mpr ⟨fun r hr => absurd hr (here r), h.2.2⟩⟩
  | some r =>
    have here : ∀ x, eng.engines[e] = some x → x = r := fun x hx => Option.some.inj (hx.symm.trans he)
    cases best with
    | none =>
      dsimp only
      split
      · next sooner =>
        exact ⟨⟨r, he, rfl⟩, sooner, List.forall_mem_cons.mpr ⟨fun x hx => (here x hx) ▸ le_rfl,
          fun d hd x hx => sooner.le.trans (h d hd x hx)⟩⟩
      · next later => exact List.forall_mem_cons.mpr ⟨fun x hx => (here x hx) ▸ not_lt.mp later, h⟩
    | some p =>
      obtain ⟨found, early, least⟩ := h
      dsimp only
      split
      · next sooner =>
        exact ⟨⟨r, he, rfl⟩, sooner.trans early, List.forall_mem_cons.mpr ⟨fun x hx => (here x hx) ▸ le_rfl,
          fun d hd x hx => sooner.le.trans (least d hd x hx)⟩⟩
      · next later =>
        exact ⟨found, early, List.forall_mem_cons.mpr ⟨fun x hx => (here x hx) ▸ not_lt.mp later, least⟩⟩

theorem earliest_foldl {t : Nat} {eng : EngineBlock} : ∀ (es : List EngineNo) {seen : List EngineNo}
    {best : Option (EngineNo × Nat)}, Earliest t eng seen best →
    Earliest t eng (es.reverse ++ seen) (es.foldl (eng.earlier t) best)
  | [], _, _, h => h
  | e :: es, seen, best, h => by
    have rest := earliest_foldl es (earliest_earlier h e)
    rwa [List.reverse_cons, List.append_assoc, List.singleton_append]

theorem earliest_all (t : Nat) (eng : EngineBlock) :
    Earliest t eng [3, 2, 1, 0] (([0, 1, 2, 3] : List EngineNo).foldl (eng.earlier t) none) :=
  earliest_foldl [0, 1, 2, 3] (seen := []) (best := none) fun _ h => absurd h List.not_mem_nil

theorem mem_allEngines (e : EngineNo) : e ∈ ([3, 2, 1, 0] : List EngineNo) := by fin_cases e <;> decide

theorem done_of_firstBefore_none {t : Nat} {eng : EngineBlock} (h : eng.firstBefore t = none) (e : EngineNo) (r : Running)
    (hr : eng.engines[e] = some r) : t ≤ r.done := by
  rw [firstBefore_eq, Option.map_eq_none_iff] at h
  have all := earliest_all t eng
  rw [h] at all
  exact all e (mem_allEngines e) r hr

/-- The engine found completes before the instant, and no other does so earlier. -/
theorem least_of_firstBefore {t : Nat} {eng : EngineBlock} {e : EngineNo} (h : eng.firstBefore t = some e) :
    ∃ r, eng.engines[e] = some r ∧ r.done < t ∧
      ∀ (d : EngineNo) (x : Running), eng.engines[d] = some x → r.done ≤ x.done := by
  rw [firstBefore_eq, Option.map_eq_some_iff] at h
  obtain ⟨⟨e', d⟩, found, rfl⟩ := h
  have all := earliest_all t eng
  rw [found] at all
  obtain ⟨⟨r, hr, rfl⟩, early, least⟩ := all
  exact ⟨r, hr, early, fun d x hx => least d (mem_allEngines d) x hx⟩

/-- What taking a result can do: nothing, an ENCODE result kept, or a DECODE result kept (R124). -/
theorem takeResult_cases (r : Running) (s : State) : s.takeResult r = s ∨
    (∃ f kind rate payload, s.takeResult r = (s.modCtx r.job.chan f).placeFrame r.job.chan kind rate payload) ∨
    ∃ f, s.takeResult r = s.modCtx r.job.chan f := by
  unfold State.takeResult
  split
  · exact .inl rfl
  · split
    · exact .inl rfl
    · split
      · split
        · exact .inl rfl
        · exact .inr (.inl ⟨_, _, _, _, rfl⟩)
      · split
        · exact .inr (.inr ⟨_, rfl⟩)
        · exact .inl rfl
      · exact .inl rfl
      · exact .inl rfl

/-- Taking a result starts nothing. -/
theorem running_takeResult (r : Running) (s : State) (e : EngineNo) (x : Running)
    (hx : (s.takeResult r).eng.engines[e] = some x) :
    (∃ y, s.eng.engines[e] = some y ∧ y.done = x.done) ∨ s.hw.periodStart ≤ x.done := by
  have kept : ∀ f, ((s.modCtx r.job.chan f).eng.engines[e] = s.eng.engines[e]) := fun f => by rw [modCtx_eng]
  rcases takeResult_cases r s with same | ⟨f, kind, rate, payload, same⟩ | ⟨f, same⟩
  · rw [same] at hx
    exact .inl ⟨x, hx, rfl⟩
  · rw [same] at hx
    have placed := (quiet_placeFrame r.job.chan kind rate payload (s.modCtx r.job.chan f)).running e x hx
    rwa [kept, modCtx_hw] at placed
  · rw [same, kept] at hx
    exact .inl ⟨x, hx, rfl⟩

/-- A completion taken leaves one job fewer overdue, if its own was, and makes none so (R124). -/
theorem overdue_completeJob {s : State} {e : EngineNo} {r : Running} (hr : s.eng.engines[e] = some r) :
    (s.completeJob e).overdue ⊆ s.overdue.erase e := by
  intro d hd
  have clock := (quiet_completeJob e s).periodStart
  obtain ⟨x, hx, late⟩ := (mem_overdue _ d).mp hd
  rw [clock] at late
  have complete : s.completeJob e = ((s.freed e).takeResult r).dispatch (max r.done s.hw.periodStart) := by
    unfold State.completeJob
    rw [hr]
    rfl
  rw [complete] at hx
  have result := calm_takeResult hr
  have dispatched := calm_dispatch (max r.done s.hw.periodStart) ((s.freed e).takeResult r)
    (result.periodStart ▸ le_max_right _ _)
  rcases dispatched.running d x hx with ⟨y, hy, same⟩ | later
  · rcases running_takeResult r (s.freed e) d y hy with ⟨z, hz, same'⟩ | later
    · have hz : (s.eng.engines.set e none)[d] = some z := hz
      rw [set_getElem_fin] at hz
      split at hz
      · cases hz
      · next other =>
        exact Finset.mem_erase.mpr ⟨other, (mem_overdue s d).mpr ⟨z, hz, by omega⟩⟩
    · have later : s.hw.periodStart ≤ y.done := later
      omega
  · rw [result.periodStart] at later
    omega

theorem completionsTaken_completeBefore {t : Nat} : ∀ (n : Nat) {s : State}, s.hw.periodStart ≤ t → s.overdue.card ≤ n →
    (s.completeBefore t n).CompletionsTaken
  | 0, s, _, few => (completionsTaken_iff s).mpr (Finset.card_eq_zero.mp (Nat.le_zero.mp few))
  | n + 1, s, reach, few => by
    unfold State.completeBefore
    split
    · next none => exact fun e r hr => reach.trans (done_of_firstBefore_none none e r hr)
    · next e found =>
      obtain ⟨r, hr, _, least⟩ := least_of_firstBefore found
      have clock := (quiet_completeJob e s).periodStart
      have fewer := overdue_completeJob hr
      refine completionsTaken_completeBefore n (clock ▸ reach) ((Finset.card_le_card fewer).trans ?_)
      by_cases own : e ∈ s.overdue
      · rw [Finset.card_erase_of_mem own]
        omega
      · have none : s.overdue = ∅ := Finset.eq_empty_iff_forall_notMem.mpr fun d hd => by
          obtain ⟨x, hx, late⟩ := (mem_overdue s d).mp hd
          exact own ((mem_overdue s e).mpr ⟨r, hr, (least d x hx).trans_lt late⟩)
        rw [none]
        simp

/-! ## The end of a period -/

theorem keepsAll_takeAllDue (s : State) : KeepsAll s s.takeAllDue :=
  (keepsAll_foldl keepsAll_takeWhole s.due s).trans (quiet_takeDeadlines _ _).keepsAll

theorem keepsAll_advanceTo (t : Nat) (s : State) : KeepsAll s (s.advanceTo t) := by
  unfold State.advanceTo
  split
  · exact (keepsAll_takeAllDue s).trans (quiet_completeBefore t 16 _).keepsAll
  · exact .refl s

/-- The clock is no event's business but the period start's. -/
theorem clock_of_standing {s t : State} (h : t.standing = s.standing) :
    t.hw.periodStart = s.hw.periodStart ∧ t.hw.expected = s.hw.expected ∧ t.hw.c = s.hw.c ∧ t.hw.sync = s.hw.sync :=
  ⟨congrArg (fun x => x.hw.periodStart) h, congrArg (fun x => x.hw.expected) h, congrArg (fun x => x.hw.c) h,
    congrArg (fun x => x.hw.sync) h⟩

theorem advanceTo_periodStart (t : Nat) (s : State) : (s.advanceTo t).hw.periodStart = s.hw.periodStart :=
  (clock_of_standing (standing_advanceTo t s)).1

/-- What the part does by itself up to an instant of the period leaves nothing of the period start over. -/
theorem nothing_left_advanceTo {t : Nat} {s : State} (h : s.hw.periodStart < t) :
    (s.advanceTo t).BoundariesTaken ∧ (s.advanceTo t).DeadlinesTaken ∧ (s.advanceTo t).CompletionsTaken := by
  unfold State.advanceTo
  rw [if_pos h]
  have folded := standing_foldl State.takeWhole (fun u d => (standing_finish _).trans (standing_takeIfDue d u)) s.due s
  have events : (s.due.foldl State.takeWhole s).BoundariesTaken := fun ch hd =>
    absurd (due_foldl_takeWhole s.due hd).1 (due_foldl_takeWhole s.due hd).2
  have boundaries : s.takeAllDue.BoundariesTaken := (quiet_takeDeadlines _ _).boundariesTaken events
  have clock : s.takeAllDue.hw.periodStart = s.hw.periodStart := (clock_of_standing (standing_takeAllDue s)).1
  have deadlines : s.takeAllDue.DeadlinesTaken := fun j hj => by
    rw [clock]
    exact deadline_of_takeDeadlines hj
  have quiet := quiet_completeBefore t 16 s.takeAllDue
  exact ⟨quiet.boundariesTaken boundaries, quiet.deadlinesTaken deadlines,
    completionsTaken_completeBefore 16 (clock ▸ h.le) ((Finset.card_le_univ _).trans (by decide))⟩

/-! ## The starts settled by a short period -/

section settle
variable {s : State} {ended : Nat}

theorem duration_bounds (j : Job) : 60000 ≤ j.durationNs ∧ j.durationNs ≤ 120000 := by
  unfold Job.durationNs
  cases j.kind <;> cases j.rate <;> decide

/-- A settled running job keeps its duration, and its deadline where it started 110 µs into the period or later. -/
theorem times_settleStart {r : Running} {start : Nat} (raster : r.job.deadline % 125000 = start % 125000)
    (late : start + 110000 ≤ ended) (times : r.done = r.start + r.job.durationNs ∧ r.done ≤ r.job.deadline) :
    let x := r.settleStart ended (start + 125000)
    x.done = x.start + x.job.durationNs ∧ x.done ≤ x.job.deadline ∧ r.done ≤ x.done := by
  obtain ⟨duration, met⟩ := times
  have bounds := duration_bounds r.job
  unfold Running.settleStart
  split
  · next moved =>
    simp only [Bool.and_eq_true, decide_eq_true_eq] at moved
    dsimp only
    omega
  · exact ⟨duration, met, le_rfl⟩

theorem held_settleStarts (p : Job → Bool) (a b : Nat) (eng : EngineBlock) : (eng.settleStarts a b).held p = eng.held p := by
  unfold EngineBlock.held
  rw [settleStarts_queue, engines_toList, engines_toList, List.countP_map, List.countP_map]
  congr 2
  funext e
  rw [Function.comp_apply, Function.comp_apply, settleStarts_engine]
  cases eng.engines[e] with
  | none => rfl
  | some r => simp

theorem holds_settleStarts {a b : Nat} {eng : EngineBlock} {j : Job} (h : (eng.settleStarts a b).Holds j) : eng.Holds j := by
  rcases h with hq | ⟨e, r', hr', rfl⟩
  · exact .inl hq
  · rw [settleStarts_engine, Option.map_eq_some_iff] at hr'
    obtain ⟨r, hr, rfl⟩ := hr'
    exact .inr ⟨e, r, hr, (settleStart_job a b r).symm⟩

/-- The state with the starts settled. -/
def State.settled (ended next : Nat) (s : State) : State := { s with eng := s.eng.settleStarts ended next }

theorem engines_settled (late : s.hw.periodStart + 110000 ≤ ended) (h : EnginesInv s) :
    EnginesInv (s.settled ended (s.hw.periodStart + 125000)) := by
  rw [enginesInv_iff] at *
  obtain ⟨expected, ⟨raster, order, times, decodes⟩, busy⟩ := h
  refine ⟨expected, ⟨fun j hj => raster j (holds_settleStarts hj), order, fun e x hx => ?_, fun ch => ?_⟩, fun some e => ?_⟩
  · have hx : (s.eng.settleStarts ended (s.hw.periodStart + 125000)).engines[e] = some x := hx
    rw [settleStarts_engine, Option.map_eq_some_iff] at hx
    obtain ⟨r, hr, rfl⟩ := hx
    have settled := times_settleStart (raster r.job (.inr ⟨e, r, hr, rfl⟩)) late (times e r hr)
    exact ⟨settled.1, settled.2.1⟩
  · exact (held_settleStarts _ _ _ _).trans_le (decodes ch)
  · show ((s.eng.settleStarts ended (s.hw.periodStart + 125000)).engines[e]).isSome
    rw [settleStarts_engine, Option.isSome_map]
    exact busy some e

theorem samples_settled (next : Nat) (h : SamplesInv s) : SamplesInv (s.settled ended next) := by
  refine ⟨h.1, h.2.1, fun e x hx => ?_⟩
  have hx : (s.eng.settleStarts ended next).engines[e] = some x := hx
  rw [settleStarts_engine, Option.map_eq_some_iff] at hx
  obtain ⟨r, hr, rfl⟩ := hx
  rw [settleStart_job, settleStart_read]
  exact h.2.2 e r hr

/-- A completion does not come earlier by the settling. -/
theorem done_settled {e : EngineNo} {x : Running} (late : s.hw.periodStart + 110000 ≤ ended) (h : EnginesInv s)
    (hx : (s.settled ended (s.hw.periodStart + 125000)).eng.engines[e] = some x) :
    ∃ r, s.eng.engines[e] = some r ∧ r.done ≤ x.done := by
  have hx : (s.eng.settleStarts ended (s.hw.periodStart + 125000)).engines[e] = some x := hx
  rw [settleStarts_engine, Option.map_eq_some_iff] at hx
  obtain ⟨r, hr, rfl⟩ := hx
  obtain ⟨_, raster, _, times, _⟩ := h
  exact ⟨r, hr, (times_settleStart (raster r.job (.inr ⟨e, r, hr, rfl⟩)) late (times e r hr)).2.2⟩

theorem keepsAll_settled (late : 125000 ≤ s.hw.expected → s.hw.periodStart + 110000 ≤ ended) :
    KeepsAll s (s.settled ended (s.hw.periodStart + 125000)) where
  engines h := engines_settled (late h.1) h
  samples := samples_settled _
  encode who h := by
    obtain ⟨phase, jobs, timely, once, made⟩ := h
    refine ⟨phase, engines_settled (late jobs.1) jobs, ⟨timely.1, fun e x hx => ?_⟩,
      fun ch => (held_settleStarts _ _ _ _).trans_le (once ch), fun ch j hj => made ch j (holds_settleStarts hj)⟩
    obtain ⟨r, hr, later⟩ := done_settled (late jobs.1) jobs hx
    have := timely.2 e r hr
    show s.hw.periodStart ≤ _
    omega

end settle

/-- The two ways a period ends, as operations already known. -/
theorem endPeriod_eq (tNs : Nat) (s : State) : s.endPeriod tNs =
    let s1 := s.advanceTo (s.hw.endOfPeriod tNs)
    if 125000 < tNs then
      (s1.takeDeadlines (s.hw.periodStart + 125000)).completeBefore (s.hw.periodStart + 125000 + 1) 16
    else s1.settled (s.hw.endOfPeriod tNs) (s1.hw.periodStart + 125000) := by
  dsimp only
  rw [advanceTo_periodStart]
  rfl

/-- The end of a period keeps every invariant, when the pulse that ends it is good or it ends where it is expected to
(R23). -/
theorem keepsAll_endPeriod {s : State} {tNs : Nat} (good : s.hw.expected ≤ tNs + 15000) : KeepsAll s (s.endPeriod tNs) := by
  rw [endPeriod_eq]
  dsimp only
  refine (keepsAll_advanceTo (s.hw.endOfPeriod tNs) s).trans ?_
  have clock := clock_of_standing (standing_advanceTo (s.hw.endOfPeriod tNs) s)
  split
  · exact ((quiet_takeDeadlines _ _).trans (quiet_completeBefore _ 16 _)).keepsAll
  · refine keepsAll_settled fun expected => ?_
    rw [clock.1]
    rw [clock.2.1] at expected
    show _ ≤ s.hw.periodStart + min tNs 125000
    omega

theorem endOfPeriod_reached {s : State} {tNs : Nat} (good : s.hw.expected ≤ tNs + 15000) (expected : 125000 ≤ s.hw.expected) :
    s.hw.periodStart + 110000 ≤ s.hw.endOfPeriod tNs := by
  show _ ≤ s.hw.periodStart + min tNs 125000
  omega

theorem boundariesTaken_endPeriod {s : State} {tNs : Nat} (good : s.hw.expected ≤ tNs + 15000)
    (expected : 125000 ≤ s.hw.expected) : (s.endPeriod tNs).BoundariesTaken := by
  have reach := endOfPeriod_reached good expected
  have boundaries := (nothing_left_advanceTo (s := s) (t := s.hw.endOfPeriod tNs) (by omega)).1
  rw [endPeriod_eq]
  dsimp only
  split
  · exact ((quiet_takeDeadlines _ _).trans (quiet_completeBefore _ 16 _)).boundariesTaken boundaries
  · exact boundaries

theorem jobsTaken_endPeriod {s : State} {tNs : Nat} (good : s.hw.expected ≤ tNs + 15000) (jobs : EnginesInv s) :
    (s.endPeriod tNs).DeadlinesTaken ∧ (s.endPeriod tNs).CompletionsTaken := by
  have reach := endOfPeriod_reached good jobs.1
  obtain ⟨_, deadlines, completions⟩ := nothing_left_advanceTo (s := s) (t := s.hw.endOfPeriod tNs) (by omega)
  rw [endPeriod_eq]
  dsimp only
  split
  · have quiet := (quiet_takeDeadlines (s.hw.periodStart + 125000) (s.advanceTo (s.hw.endOfPeriod tNs))).trans
      (quiet_completeBefore (s.hw.periodStart + 125000 + 1) 16 _)
    exact ⟨quiet.deadlinesTaken deadlines, quiet.completionsTaken completions⟩
  · refine ⟨deadlines, fun e x hx => ?_⟩
    have late : (s.advanceTo (s.hw.endOfPeriod tNs)).hw.periodStart + 110000 ≤ s.hw.endOfPeriod tNs := by
      rw [advanceTo_periodStart]
      exact reach
    obtain ⟨r, hr, later⟩ := done_settled late ((keepsAll_advanceTo _ s).engines jobs) hx
    exact (completions e r hr).trans later

end Sys2Proof.Machine
end

section
/-! PROOF. The start of a period keeps every invariant: the clock moves while every sample is still to write, the events
commanded ahead are taken, and each open channel's sample is written once (R27, R31, R32, R110). -/

namespace Sys2Proof.Machine

/-! ## The clock moves -/

theorem keeps_advance (s : State) : Keeps s { s with hw := s.hw.advance } where
  engines h := by
    rw [enginesInv_iff] at *
    obtain ⟨_, ⟨raster, ordered⟩, busy⟩ := h
    refine ⟨le_rfl, ⟨fun j hj => (raster j hj).trans ?_, ordered⟩, busy⟩
    show _ = (s.hw.periodStart + 125000) % 125000
    omega

/-- Every channel is late. -/
def everybody : Chan → Bool := fun _ => true

theorem inPhase_advance {c : Context} {now : Phase} (h : c.InPhase false now) (begun : c.nUp < c.blockLen) :
    c.InPhase true (now + 1) := by
  obtain ⟨fits, least, most, _, phase, adjust⟩ := h
  refine ⟨fits, least, most, fun _ => begun, ?_, adjust⟩
  have next : (now + 1).val = (now.val + 1) % 160 := rfl
  rw [next]
  simp only [Bool.false_eq_true, if_false, if_true] at phase ⊢
  omega

theorem phaseIn_advance {s : State} (taken : s.BoundariesTaken) (h : PhaseIn nobody none s) :
    PhaseIn everybody none { s with hw := s.hw.advance } := by
  obtain ⟨_, raised, once, contexts⟩ := h
  refine ⟨le_rfl, raised, once, fun ch c hc => ?_⟩
  have phase := contexts ch c hc
  have begun : c.nUp ≠ c.blockLen := fun full => taken ch ((raised ch).mpr ⟨by simp, c, hc, full⟩)
  exact inPhase_advance phase (lt_of_le_of_ne phase.1 begun)

theorem encodeIn_advance {s : State} (boundaries : s.BoundariesTaken) (deadlines : s.DeadlinesTaken)
    (completions : s.CompletionsTaken) (h : EncodeIn nobody none s) :
    EncodeIn everybody none { s with hw := s.hw.advance } := by
  obtain ⟨phase, jobs, _, once, made⟩ := h
  refine ⟨phaseIn_advance boundaries phase, (keeps_advance s).engines jobs, ⟨fun j hj => ?_, fun e r hr => ?_⟩, once,
    fun ch j hj own => ?_⟩
  · have later := deadlines j hj
    have raster := jobs.2.1 j (.inl hj)
    show s.hw.periodStart + 125000 ≤ j.deadline
    omega
  · have := completions e r hr
    show s.hw.periodStart + 125000 ≤ r.done + 125000
    omega
  · obtain ⟨c, hc, settled, deadline⟩ := made ch j hj own
    refine ⟨c, hc, settled, ?_⟩
    rw [if_neg (by simp)] at deadline ⊢
    show j.deadline + 125000 * (c.nUp + 1) = s.hw.periodStart + 125000 + 4000000
    have zero : (nobody ch).toNat = 0 := rfl
    omega

/-! ## The sample write -/

theorem writeSample_of_free {wasLost : Bool} {codes : HighwayCodes} {ch : Chan} {s : State} (hc : s.chan[ch] = none) :
    s.writeSample wasLost codes ch = s := by
  unfold State.writeSample
  rw [hc]

/-- The context a sample write leaves, but for the sample itself. -/
theorem writeSample_fields (law : Law) (code : Byte) (c : Context) :
    c.Steady (c.writeSample law code) ∧ (c.writeSample law code).nUp = c.nUp + 1 ∧
    (c.writeSample law code).blockLen = c.blockLen ∧ (c.writeSample law code).fresh = c.fresh ∧
    (c.writeSample law code).phiUp = c.phiUp ∧ (c.writeSample law code).phiDn = c.phiDn ∧
    (c.writeSample law code).adjust = c.adjust ∧ (c.writeSample law code).state = c.state := by
  refine ⟨{ samples := fun h => ?_ }, rfl, rfl, rfl, rfl, rfl, rfl, rfl⟩
  obtain ⟨ring, size, more⟩ := h
  refine ⟨fun x hx => ?_, ?_, more⟩
  · rcases List.mem_cons.mp (List.mem_of_mem_take hx) with rfl | hx
    · exact isSample_gainSample _ _
    · exact ring x hx
  · show ((gainSample c.gainUp (expand law code) :: c.ring).take 200).length = 200
    rw [List.length_take, List.length_cons, size]
    rfl

/-- A sample write, as a context written: in the period OPEN is taken in it only ends that (R7, R31). -/
theorem writeSample_eq {wasLost : Bool} {codes : HighwayCodes} {ch : Chan} {s : State} {c : Context}
    (hc : s.chan[ch] = some c) : s.writeSample wasLost codes ch =
      let law := s.lawOf c
      let d := c.writeSample law (receivedCode wasLost law (slotNo c.highway c.timeslot) codes)
      if c.fresh then s.setCtx ch { c with fresh := false }
      else { s.setCtx ch d with due := if c.nUp + 1 = c.blockLen then s.due ++ [.uplink ch] else s.due } := by
  unfold State.writeSample
  rw [hc]
  dsimp only
  rw [modCtx_eq ch c s _ hc]
  rfl

theorem keeps_writeSample (wasLost : Bool) (codes : HighwayCodes) (ch : Chan) (s : State) :
    Keeps s (s.writeSample wasLost codes ch) := by
  cases hc : s.chan[ch] with
  | none => rw [writeSample_of_free hc]; exact .refl s
  | some c =>
    rw [writeSample_eq hc]
    dsimp only
    have written : ∀ d : Context, c.Steady d → d.phiUp = c.phiUp → d.phiDn = c.phiDn → d.state = c.state →
        Keeps s (s.setCtx ch d) := fun d steady up down state =>
      { steady_setCtx hc steady fun h => buckets_setCtx (s := s) (ch := ch) (x := some d) rfl (fun b => by
          rw [hc, bucketShare, bucketShare, up, down]; rfl) h with
        modes := modes_setCtx hc (by rw [state]) }
    split
    · exact written _ {} rfl rfl rfl
    · obtain ⟨steady, _, _, _, up, down, _, state⟩ := writeSample_fields (s.lawOf c)
        (receivedCode wasLost (s.lawOf c) (slotNo c.highway c.timeslot) codes) c
      exact (written _ steady up down state).trans {}

theorem inPhase_fresh {c : Context} {now : Phase} (h : c.InPhase true now) (fresh : c.fresh = true) :
    ({ c with fresh := false } : Context).InPhase false now := by
  obtain ⟨fits, least, most, _, phase, adjust⟩ := h
  refine ⟨fits, least, most, fun k => by simp at k, ?_, adjust⟩
  rw [fresh] at phase
  simp only [if_true, Bool.false_eq_true, if_false] at phase ⊢
  omega

theorem inPhase_writeSample {c : Context} {now : Phase} (h : c.InPhase true now) (fresh : c.fresh = false) (law : Law)
    (code : Byte) : (c.writeSample law code).InPhase false now := by
  obtain ⟨fits, least, most, short, phase, adjust⟩ := h
  obtain ⟨_, nUp, blockLen, fresh', phiUp, _, adjust', _⟩ := writeSample_fields law code c
  have begun := short (.inr rfl)
  unfold Context.InPhase Context.AdjustSound
  rw [nUp, blockLen, fresh', phiUp, adjust', fresh]
  rw [fresh] at phase
  refine ⟨begun, least, most, fun k => by simp at k, ?_, adjust⟩
  simp only [Bool.false_eq_true, if_false, if_true] at phase ⊢
  omega

/-- The channels still late once one has its sample. -/
def settle (ch : Chan) (late : Chan → Bool) : Chan → Bool := fun e => late e && decide (e ≠ ch)

@[simp] theorem settle_self (ch : Chan) (late : Chan → Bool) : settle ch late ch = false := by simp [settle]

theorem settle_other {ch e : Chan} (late : Chan → Bool) (h : e ≠ ch) : settle ch late e = late e := by simp [settle, h]

/-- Which contexts are in phase, once one is written for a channel that is no longer late. -/
theorem inPhase_setCtx {s : State} {ch : Chan} {d : Context} {late : Chan → Bool} (written : d.InPhase false s.hw.c)
    (h : ∀ (e : Chan) (c : Context), s.chan[e] = some c → c.InPhase (late e) s.hw.c) (e : Chan) (c : Context)
    (hc : (s.setCtx ch d).chan[e] = some c) : c.InPhase (settle ch late e) s.hw.c := by
  rw [setCtx_chan_at] at hc
  split at hc
  · next he =>
    subst he
    cases hc
    rw [settle_self]
    exact written
  · next he =>
    rw [settle_other late he]
    exact h e c hc

theorem phaseIn_writeSample (wasLost : Bool) (codes : HighwayCodes) {ch : Chan} {s : State} {late : Chan → Bool}
    (waits : late ch = true) (h : PhaseIn late none s) : PhaseIn (settle ch late) none (s.writeSample wasLost codes ch) := by
  obtain ⟨expected, raised, once, contexts⟩ := h
  cases hc : s.chan[ch] with
  | none =>
    rw [writeSample_of_free hc]
    refine ⟨expected, raised, once, fun e c he => ?_⟩
    rw [settle_other late fun same => absurd (hc.symm.trans (same ▸ he)) (by simp)]
    exact contexts e c he
  | some c =>
    have phase := contexts ch c hc
    rw [waits] at phase
    have begun : c.nUp < c.blockLen := phase.2.2.2.1 (.inr rfl)
    have unraised : .uplink ch ∉ s.due := fun due => by
      obtain ⟨_, x, hx, full⟩ := (raised ch).mp due
      cases hc.symm.trans hx
      omega
    rw [writeSample_eq hc]
    dsimp only
    split
    · next fresh =>
      refine ⟨expected, fun e => (raised e).trans (and_congr_right fun _ => ?_), once,
        inPhase_setCtx (inPhase_fresh phase fresh) contexts⟩
      exact (exists_setCtx (d := { c with fresh := false }) (fun x => x.nUp = x.blockLen) hc Iff.rfl e).symm
    · next fresh =>
      have fresh : c.fresh = false := by simpa using fresh
      obtain ⟨_, nUp, blockLen, _⟩ := writeSample_fields (s.lawOf c)
        (receivedCode wasLost (s.lawOf c) (slotNo c.highway c.timeslot) codes) c
      have written := inPhase_writeSample phase fresh (s.lawOf c)
        (receivedCode wasLost (s.lawOf c) (slotNo c.highway c.timeslot) codes)
      generalize c.writeSample (s.lawOf c) _ = d at nUp blockLen written
      refine ⟨expected, fun e => ?_, once, inPhase_setCtx written contexts⟩
      show _ ∈ (if _ then _ else _) ↔ _ ∧ ∃ x, (s.setCtx ch d).chan[e] = some x ∧ _
      rw [setCtx_chan_at]
      by_cases he : e = ch
      · subst he
        rw [if_pos rfl]
        split
        · next full => simp [nUp, blockLen, full]
        · next part => simp [nUp, blockLen, part, unraised]
      · rw [if_neg he]
        split
        · simp [he, raised]
        · exact raised e

theorem encodeIn_writeSample (wasLost : Bool) (codes : HighwayCodes) {ch : Chan} {s : State} {late : Chan → Bool}
    (waits : late ch = true) (h : EncodeIn late none s) : EncodeIn (settle ch late) none (s.writeSample wasLost codes ch) := by
  have phase := phaseIn_writeSample wasLost codes waits h.1
  have engines := (keeps_writeSample wasLost codes ch s).engines h.2.1
  obtain ⟨_, _, timely, once, made⟩ := h
  cases hc : s.chan[ch] with
  | none =>
    rw [writeSample_of_free hc] at phase engines ⊢
    refine ⟨phase, engines, timely, once, fun e j hj own => ?_⟩
    obtain ⟨x, hx, settled, deadline⟩ := made e j hj own
    exact ⟨x, hx, settled, by rw [settle_other late fun same => absurd (hc.symm.trans (same ▸ hx)) (by simp)]; exact deadline⟩
  | some c =>
    rw [writeSample_eq hc] at phase engines ⊢
    dsimp only at phase engines ⊢
    have others : ∀ (d : Context) (e : Chan) (j : Job), e ≠ ch → s.eng.Holds j → j.isEncodeOf e = true →
        ∃ x, (s.setCtx ch d).chan[e] = some x ∧ x.fresh = false ∧ j.deadline + 125000 *
          (if (none : Option Chan) = some e then 0 else x.nUp + (settle ch late e).toNat) = s.hw.periodStart + 4000000 := by
      intro d e j he hj own
      obtain ⟨x, hx, settled, deadline⟩ := made e j hj own
      refine ⟨x, (setCtx_chan_other ch d s he).trans hx, settled, ?_⟩
      rw [settle_other late he]
      exact deadline
    split at phase
    · next fresh =>
      rw [if_pos fresh] at engines ⊢
      refine ⟨phase, engines, timely, once, fun e j hj own => ?_⟩
      by_cases he : e = ch
      · subst he
        obtain ⟨x, hx, settled, _⟩ := made e j hj own
        cases hc.symm.trans hx
        rw [fresh] at settled
        cases settled
      · exact others _ e j he hj own
    · next fresh =>
      rw [if_neg fresh] at engines ⊢
      refine ⟨phase, engines, timely, once, fun e j hj own => ?_⟩
      by_cases he : e = ch
      · subst he
        obtain ⟨x, hx, settled, deadline⟩ := made e j hj own
        cases hc.symm.trans hx
        obtain ⟨_, nUp, _, fresh', _⟩ := writeSample_fields (s.lawOf c)
          (receivedCode wasLost (s.lawOf c) (slotNo c.highway c.timeslot) codes) c
        refine ⟨_, setCtx_chan_self e _ s, fresh'.trans settled, ?_⟩
        rw [settle_self, nUp]
        rw [waits] at deadline
        exact deadline
      · exact others _ e j he hj own

/-! ## The invariants that a period start breaks and mends -/

/-- An invariant that knows which channels are late: it is kept by everything that keeps the others, and a late channel's
sample write mends it for that channel. -/
structure Staged (J : (Chan → Bool) → State → Prop) : Prop where
  keeps : ∀ {late s t}, KeepsAll s t → J late s → J late t
  write : ∀ {late s ch} (wasLost : Bool) (codes : HighwayCodes), late ch = true → J late s →
    J (settle ch late) (s.writeSample wasLost codes ch)
  free : ∀ {late late' s}, (∀ (ch : Chan) (c : Context), s.chan[ch] = some c → late' ch = late ch) → J late s → J late' s

theorem phaseIn_free {late late' : Chan → Bool} {taken : Option Chan} {s : State}
    (same : ∀ (ch : Chan) (c : Context), s.chan[ch] = some c → late' ch = late ch) (h : PhaseIn late taken s) :
    PhaseIn late' taken s :=
  ⟨h.1, h.2.1, h.2.2.1, fun ch c hc => (same ch c hc).symm ▸ h.2.2.2 ch c hc⟩

theorem staged_phaseIn : Staged fun late s => PhaseIn late none s where
  keeps h := h.phase _
  write lost codes := phaseIn_writeSample lost codes
  free := phaseIn_free

theorem staged_encodeIn : Staged fun late s => EncodeIn late none s where
  keeps h := h.encode _
  write lost codes := encodeIn_writeSample lost codes
  free same h := by
    obtain ⟨phase, jobs, timely, once, made⟩ := h
    refine ⟨phaseIn_free same phase, jobs, timely, once, fun ch j hj own => ?_⟩
    obtain ⟨c, hc, settled, deadline⟩ := made ch j hj own
    exact ⟨c, hc, settled, by rw [same ch c hc]; exact deadline⟩

/-! ## Channels close, and their events ahead with them -/

/-- No channel comes to be open, and the events commanded ahead for one that stays open stand. -/
def Closes (s t : State) : Prop :=
  ∀ ch : Chan, t.chan[ch] ≠ none → s.chan[ch] ≠ none ∧ (.uplink ch ∈ t.ahead ↔ .uplink ch ∈ s.ahead)

theorem Closes.refl (s : State) : Closes s s := fun _ h => ⟨h, Iff.rfl⟩

theorem Closes.trans {s t u : State} (h : Closes s t) (k : Closes t u) : Closes s u := fun ch open_ => by
  obtain ⟨before, same⟩ := k ch open_
  obtain ⟨first, same'⟩ := h ch before
  exact ⟨first, same.trans same'⟩

theorem Calm.closes {s t : State} (h : Calm s t) : Closes s t := fun ch open_ => by
  refine ⟨fun none => open_ (h.free none), by rw [h.ahead]⟩

theorem closes_setCtx {s t : State} {ch : Chan} {c : Context} (hc : s.chan[ch] = some c) {x : Option Context}
    (chan : t.chan = s.chan.set ch x) (ahead : t.ahead = s.ahead) : Closes s t := fun e open_ => by
  refine ⟨fun none => open_ ?_, by rw [ahead]⟩
  rw [chan, set_getElem_fin, if_neg fun same => absurd (hc.symm.trans (same ▸ none)) (by simp)]
  exact none

theorem closes_uplinkFinish (ch : Chan) (s : State) : Closes s (s.uplinkFinish ch) := by
  cases hc : s.chan[ch] with
  | none => rw [uplinkFinish_of_free hc]; exact .refl s
  | some c => rw [uplinkFinish_eq hc]; exact closes_setCtx hc (x := some c.nextBlock) rfl rfl

theorem closes_closed (ch : Chan) (c : Context) (s : State) : Closes s (s.closed ch c) := fun e open_ => by
  rw [closed_chan, set_getElem_fin] at open_
  split at open_
  · exact absurd rfl open_
  · next other =>
    refine ⟨open_, ?_⟩
    rw [closed_touches]
    show .uplink e ∈ withoutCycle ch s.ahead ↔ _
    simp [withoutCycle, other]

theorem closes_boundaryRun {ch : Chan} {s t : State} (h : BoundaryRun ch s t) : Closes s t := by
  cases h with
  | @encode c hc =>
    have submitted : Closes s (s.submit (c.encodeJobAt ch s.hw.periodStart) s.hw.periodStart) :=
      (calm_submitEncode (s := s) (ch := ch) (c := c)).closes
    exact submitted.trans (closes_uplinkFinish ch _)
  | faulted =>
    exact ((quiet_faultUplink ch s).closes.trans (closes_uplinkFinish ch _)).trans (quiet_echoFaultFrame ch _).closes
  | closing => exact (quiet_placeFrame ch _ _ _ s).closes.trans (closes_closed ch _ _)

theorem closes_takeEvent (d : Due) (s : State) : Closes s (s.takeEvent d) := by
  have gentle : d.Gentle → Closes s (s.takeEvent d) := fun g => (quiet_takeEvent g s).closes
  cases d with
  | downlink ch => exact gentle trivial
  | blockStart ch => exact gentle trivial
  | loadWindowEnd => exact gentle trivial
  | uplink ch =>
    unfold State.takeEvent
    dsimp only
    have same : Closes s { s with due := s.due.filter fun x => x ≠ .uplink ch } := fun _ open_ => ⟨open_, Iff.rfl⟩
    refine same.trans ?_
    generalize { s with due := s.due.filter fun x => x ≠ Due.uplink ch } = u
    cases hc : u.chan[ch] with
    | none => rw [uplinkBoundary_of_free hc]; exact .refl u
    | some c => exact (quiet_settleRate hc _).closes.trans (closes_boundaryRun (boundaryRun hc))

theorem closes_takeIfDue (d : Due) (s : State) : Closes s (s.takeIfDue d) := by
  unfold State.takeIfDue
  split
  · exact closes_takeEvent d s
  · exact .refl s

theorem writeSample_open (wasLost : Bool) (codes : HighwayCodes) (ch : Chan) (s : State) :
    (s.writeSample wasLost codes ch).ahead = s.ahead ∧
      ∀ e : Chan, (s.writeSample wasLost codes ch).chan[e] = none ↔ s.chan[e] = none := by
  cases hc : s.chan[ch] with
  | none => rw [writeSample_of_free hc]; exact ⟨rfl, fun _ => Iff.rfl⟩
  | some c =>
    have written : ∀ (d : Context) (e : Chan), (s.setCtx ch d).chan[e] = none ↔ s.chan[e] = none := fun d e => by
      rw [setCtx_chan_at]
      split
      · next same => subst same; simp [hc]
      · exact Iff.rfl
    rw [writeSample_eq hc]
    dsimp only
    split
    · exact ⟨rfl, written _⟩
    · exact ⟨rfl, written _⟩

theorem closes_writeSample (wasLost : Bool) (codes : HighwayCodes) (ch : Chan) (s : State) :
    Closes s (s.writeSample wasLost codes ch) := fun e open_ => by
  obtain ⟨ahead, same⟩ := writeSample_open wasLost codes ch s
  exact ⟨fun none => open_ ((same e).mpr none), by rw [ahead]⟩

end Sys2Proof.Machine
end

section
/-! PROOF. The work of a period start, stage by stage: what was commanded ahead, the load window and the sync state, and each
open channel's sample, events and code (R24, R26, R31, R32, R37, R130). -/

namespace Sys2Proof.Machine

/-! ## The events commanded ahead -/

theorem keeps_takeAhead (wasLost : Bool) (codes : HighwayCodes) (s : State) (d : Due) :
    Keeps s (s.takeAhead wasLost codes d) := by
  unfold State.takeAhead
  cases d with
  | uplink ch =>
    exact ((keeps_writeSample wasLost codes ch s).trans (keepsAll_takeIfDue _ _).toKeeps).trans (quiet_finish _).keeps
  | downlink ch =>
    dsimp only
    split
    · exact (quiet_takeEvent (d := .downlink ch) trivial s).keeps.trans (quiet_finish _).keeps
    · exact .refl s
  | blockStart ch =>
    dsimp only
    split
    · exact (quiet_taken (d := .blockStart ch) trivial s).keeps.trans (quiet_chooseOutput ch _).keeps
    · exact .refl s
  | loadWindowEnd => exact .refl s

theorem quiet_takeAhead_gentle {d : Due} (g : d.Gentle) (wasLost : Bool) (codes : HighwayCodes) (s : State) :
    Quiet s (s.takeAhead wasLost codes d) := by
  unfold State.takeAhead
  cases d with
  | uplink ch => cases g
  | downlink ch =>
    dsimp only
    split
    · exact (quiet_takeEvent (d := .downlink ch) trivial s).trans (quiet_finish _)
    · exact .refl s
  | blockStart ch =>
    dsimp only
    split
    · exact (quiet_taken (d := .blockStart ch) trivial s).trans (quiet_chooseOutput ch _)
    · exact .refl s
  | loadWindowEnd => exact .refl s

theorem closes_takeAhead (wasLost : Bool) (codes : HighwayCodes) (s : State) (d : Due) :
    Closes s (s.takeAhead wasLost codes d) := by
  have gentle : d.Gentle → Closes s (s.takeAhead wasLost codes d) := fun g => (quiet_takeAhead_gentle g wasLost codes s).closes
  cases d with
  | downlink ch => exact gentle trivial
  | blockStart ch => exact gentle trivial
  | loadWindowEnd => exact gentle trivial
  | uplink ch =>
    exact ((closes_writeSample wasLost codes ch s).trans (closes_takeIfDue _ _)).trans (quiet_finish _).closes

/-- The channels still late once these events have been taken ahead. -/
def lateAfter (taken : List Due) : Chan → Bool := fun ch => decide (.uplink ch ∉ taken)

theorem lateAfter_cons_uplink (ch : Chan) (taken : List Due) :
    lateAfter (.uplink ch :: taken) = settle ch (lateAfter taken) := by
  funext e
  unfold lateAfter settle
  by_cases he : e = ch <;> simp [he]

theorem lateAfter_cons_gentle {d : Due} (g : d.Gentle) (taken : List Due) : lateAfter (d :: taken) = lateAfter taken := by
  funext e
  simp [lateAfter, g.ne_uplink e]

section staged
variable {J : (Chan → Bool) → State → Prop} (staged : Staged J)
include staged

theorem staged_takeAhead (wasLost : Bool) (codes : HighwayCodes) {s : State} {d : Due} {taken : List Due} (new : d ∉ taken)
    (h : J (lateAfter taken) s) : J (lateAfter (d :: taken)) (s.takeAhead wasLost codes d) := by
  have gentle : d.Gentle → J (lateAfter (d :: taken)) (s.takeAhead wasLost codes d) := fun g => by
    rw [lateAfter_cons_gentle g]
    exact staged.keeps (quiet_takeAhead_gentle g wasLost codes s).keepsAll h
  cases d with
  | downlink ch => exact gentle trivial
  | blockStart ch => exact gentle trivial
  | loadWindowEnd => exact gentle trivial
  | uplink ch =>
    rw [lateAfter_cons_uplink]
    have written := staged.write wasLost codes (ch := ch) (by simpa [lateAfter] using new) h
    exact staged.keeps ((keepsAll_takeIfDue _ _).trans (quiet_finish _).keepsAll) written

theorem staged_foldl_takeAhead (wasLost : Bool) (codes : HighwayCodes) : ∀ (ds : List Due) {taken : List Due} {s : State},
    (ds.reverse ++ taken).Nodup → J (lateAfter taken) s →
    J (lateAfter (ds.reverse ++ taken)) (ds.foldl (State.takeAhead wasLost codes) s) ∧
      Closes s (ds.foldl (State.takeAhead wasLost codes) s)
  | [], _, s, _, h => ⟨h, .refl s⟩
  | d :: ds, taken, s, once, h => by
    rw [List.reverse_cons, List.append_assoc, List.singleton_append] at once ⊢
    have new : d ∉ taken := (List.nodup_cons.mp (List.nodup_append.mp once).2.1).1
    obtain ⟨last, closes⟩ := staged_foldl_takeAhead wasLost codes ds once (staged_takeAhead staged wasLost codes new h)
    exact ⟨last, (closes_takeAhead wasLost codes s d).trans closes⟩

/-- After the events ahead, the late channels are the open ones whose uplink boundary was not among them. -/
theorem staged_beginPeriod (codes : HighwayCodes) {s : State} (once : s.ahead.Nodup)
    (h : J everybody { s with hw := s.hw.advance }) :
    J (lateAfter s.ahead.reverse) (s.beginPeriod codes) ∧ Closes s (s.beginPeriod codes) := by
  have begun : lateAfter [] = everybody := by funext ch; simp [lateAfter, everybody]
  rw [← begun] at h
  have folded := staged_foldl_takeAhead staged (s.hw.sync = .lost) codes s.ahead (taken := [])
    (by rw [List.append_nil]; exact List.nodup_reverse.mpr once) h
  rw [List.append_nil] at folded
  have moved : Closes s { s with hw := s.hw.advance } := fun _ open_ => ⟨open_, Iff.rfl⟩
  exact ⟨folded.1, moved.trans folded.2⟩

end staged

theorem keeps_beginPeriod (codes : HighwayCodes) (s : State) : Keeps s (s.beginPeriod codes) :=
  List.foldlRecOn s.ahead _ (motive := fun t => Keeps s t) (keeps_advance s) fun t h d _ =>
    h.trans (keeps_takeAhead _ codes t d)

/-! ## The load window and the sync state -/

theorem quiet_countWrap (s : State) : Quiet s s.countWrap := by
  unfold State.countWrap
  split
  · dsimp only
    refine (quiet_load { s.eng.load with wraps := s.eng.load.wraps - 1 } s).trans (quiet_due _ fun ch => ?_)
    split
    · simp
    · exact Iff.rfl
  · exact .refl s

theorem quiet_judgeSync (good : Bool) (s : State) : Quiet s (s.judgeSync good) := by
  have judged : ∀ h : HighwayBlock, h.c = s.hw.c → h.periodStart = s.hw.periodStart → h.expected = s.hw.expected →
      h.bindings = s.hw.bindings → Quiet s { s with hw := h } := fun h c start expected bindings =>
    { c := c, periodStart := start, expected := fun k => expected ▸ k, bindings := bindings, chan := fun _ => rel_calm_refl _
      ordered := id }
  have counted : ∀ st, Quiet s { s with hw := { s.hw.countRuns good with sync := st } } := fun st => by
    refine judged _ ?_ ?_ ?_ ?_ <;> unfold HighwayBlock.countRuns <;> split <;> rfl
  unfold State.judgeSync
  dsimp only
  split
  · exact counted _
  · split
    · exact ((counted _).trans (quiet_notify _ _)).trans (quiet_forEachOpen (fun ch t => quiet_findPresent ch .highway t) _)
    · split
      · exact ((counted _).trans (quiet_notify _ _)).trans (quiet_forEachOpen (fun ch t => quiet_setAbsent ch .highway t) _)
      · exact (counted _).trans (quiet_notify _ _)

/-! ## Each open channel -/

theorem quiet_latchGain (ch : Chan) (s : State) : Quiet s (s.modCtx ch Context.latchGain) :=
  quiet_modCtx_of_id (fun _ => {}) fun _ => id

theorem quiet_raiseEvents (ch : Chan) (s : State) : Quiet s (s.raiseEvents ch) := by
  unfold State.raiseEvents
  cases s.chan[ch] with
  | none => exact .refl s
  | some c =>
    refine quiet_due s fun e => ?_
    rw [List.mem_append, List.mem_append]
    refine ⟨fun h => ?_, fun h => .inl (.inl h)⟩
    rcases h with (h | h) | h
    · exact h
    · split at h <;> simp at h
    · split at h <;> simp at h

/-- The end of a channel's work at a period start: the events it raises and the code it sends. -/
def State.raiseAndSend (ch : Chan) (s : State) : State :=
  let s1 := s.raiseEvents ch
  if s1.sendsNow ch then s1.sendCode ch else s1

theorem quiet_raiseAndSend (ch : Chan) (s : State) : Quiet s (s.raiseAndSend ch) := by
  unfold State.raiseAndSend
  dsimp only
  split
  · exact (quiet_raiseEvents ch s).trans (quiet_sendCode ch _)
  · exact quiet_raiseEvents ch s

theorem channelPeriod_eq (wasLost : Bool) (codes : HighwayCodes) (ch : Chan) (s : State) :
    s.channelPeriod wasLost codes ch =
      (if .uplink ch ∈ s.ahead then s.modCtx ch Context.latchGain
        else (s.modCtx ch Context.latchGain).writeSample wasLost codes ch).raiseAndSend ch := by
  unfold State.channelPeriod State.raiseAndSend
  dsimp only
  rw [modCtx_ahead]
  simp only [List.contains_iff_mem]

theorem keeps_channelPeriod (wasLost : Bool) (codes : HighwayCodes) (ch : Chan) (s : State) :
    Keeps s (s.channelPeriod wasLost codes ch) := by
  rw [channelPeriod_eq]
  refine Keeps.trans ?_ (quiet_raiseAndSend ch _).keeps
  split
  · exact (quiet_latchGain ch s).keeps
  · exact (quiet_latchGain ch s).keeps.trans (keeps_writeSample wasLost codes ch _)

/-- Exactly the same channels stay open, and nothing leaves the events ahead. -/
theorem channelPeriod_open (wasLost : Bool) (codes : HighwayCodes) (ch : Chan) (s : State) :
    (s.channelPeriod wasLost codes ch).ahead = s.ahead ∧
      ∀ e : Chan, (s.channelPeriod wasLost codes ch).chan[e] = none ↔ s.chan[e] = none := by
  have calm : ∀ {u v : State}, Calm u v → ∀ e : Chan, v.chan[e] = none ↔ u.chan[e] = none := fun {u v} h e => by
    refine ⟨fun none => ?_, h.free⟩
    by_contra some
    obtain ⟨c, hc⟩ := Option.ne_none_iff_exists'.mp some
    obtain ⟨d, hd, _⟩ := h.open_ hc
    exact absurd (none.symm.trans hd) (by simp)
  rw [channelPeriod_eq]
  have first := quiet_latchGain ch s
  split
  · have last := quiet_raiseAndSend ch (s.modCtx ch Context.latchGain)
    exact ⟨last.ahead.trans first.ahead, fun e => (calm last.toCalm e).trans (calm first.toCalm e)⟩
  · have last := quiet_raiseAndSend ch ((s.modCtx ch Context.latchGain).writeSample wasLost codes ch)
    obtain ⟨ahead, same⟩ := writeSample_open wasLost codes ch (s.modCtx ch Context.latchGain)
    exact ⟨last.ahead.trans (ahead.trans first.ahead), fun e => ((calm last.toCalm e).trans (same e)).trans (calm first.toCalm e)⟩

/-- Before their work at a period start, the channels still to come are late unless their sample was written ahead, and the
others are not. -/
structure Working (J : (Chan → Bool) → State → Prop) (todo : List Chan) (late : Chan → Bool) (s : State) : Prop where
  inv : J late s
  open_ : ∀ ch ∈ todo, s.chan[ch] ≠ none
  here : ∀ ch ∈ todo, late ch = true ↔ .uplink ch ∉ s.ahead
  past : ∀ ch : Chan, s.chan[ch] ≠ none → ch ∉ todo → late ch = false

theorem working_channelPeriod {J : (Chan → Bool) → State → Prop} (staged : Staged J) (wasLost : Bool) (codes : HighwayCodes)
    {ch : Chan} {todo : List Chan} {late : Chan → Bool} {s : State} (new : ch ∉ todo) (h : Working J (ch :: todo) late s) :
    ∃ late', Working J todo late' (s.channelPeriod wasLost codes ch) := by
  obtain ⟨ahead, same⟩ := channelPeriod_open wasLost codes ch s
  have stays : ∀ e ∈ todo, (s.channelPeriod wasLost codes ch).chan[e] ≠ none := fun e he none =>
    h.open_ e (List.mem_cons_of_mem ch he) ((same e).mp none)
  have mine := h.here ch List.mem_cons_self
  have others : ∀ {late' : Chan → Bool}, (∀ e, e ≠ ch → late' e = late e) → late' ch = false →
      (∀ e ∈ todo, late' e = true ↔ .uplink e ∉ (s.channelPeriod wasLost codes ch).ahead) ∧
      ∀ e : Chan, (s.channelPeriod wasLost codes ch).chan[e] ≠ none → e ∉ todo → late' e = false := by
    intro late' keep done
    refine ⟨fun e he => ?_, fun e open_ he => ?_⟩
    · rw [keep e fun same => new (same ▸ he), ahead]
      exact h.here e (List.mem_cons_of_mem ch he)
    · by_cases he' : e = ch
      · exact he' ▸ done
      · rw [keep e he']
        exact h.past e (fun none => open_ ((same e).mpr none)) (by simp [he', he])
  have latched := staged.keeps (quiet_latchGain ch s).keepsAll h.inv
  have run := channelPeriod_eq wasLost codes ch s
  by_cases written : .uplink ch ∈ s.ahead
  · have done : late ch = false := Bool.eq_false_iff.mpr fun waits => mine.mp waits written
    obtain ⟨here, past⟩ := others (late' := late) (fun _ _ => rfl) done
    refine ⟨late, ?_, stays, here, past⟩
    rw [run, if_pos written]
    exact staged.keeps (quiet_raiseAndSend ch _).keepsAll latched
  · obtain ⟨here, past⟩ := others (late' := settle ch late) (fun e he => settle_other late he) (settle_self ch late)
    refine ⟨settle ch late, ?_, stays, here, past⟩
    rw [run, if_neg written]
    exact staged.keeps (quiet_raiseAndSend ch _).keepsAll (staged.write wasLost codes (mine.mpr written) latched)

theorem working_foldl {J : (Chan → Bool) → State → Prop} (staged : Staged J) (wasLost : Bool) (codes : HighwayCodes) :
    ∀ (todo : List Chan) {late : Chan → Bool} {s : State}, todo.Nodup → Working J todo late s →
    ∃ late', Working J [] late' (todo.foldl (fun st ch => st.channelPeriod wasLost codes ch) s)
  | [], late, _, _, h => ⟨late, h⟩
  | ch :: todo, _, _, once, h => by
    obtain ⟨new, once⟩ := List.nodup_cons.mp once
    obtain ⟨late', h'⟩ := working_channelPeriod staged wasLost codes new h
    exact working_foldl staged wasLost codes todo once h'

/-! ## The whole of a period start -/

theorem keepsAll_ahead_nil (s : State) : KeepsAll s { s with ahead := [] } where
  phase _ h := ⟨h.1, h.2.1, List.nodup_nil, h.2.2.2⟩
  encode _ h := ⟨⟨h.1.1, h.1.2.1, List.nodup_nil, h.1.2.2.2⟩, h.2⟩

theorem keeps_startPeriod (good : Bool) (codes : HighwayCodes) (s : State) : Keeps s (s.startPeriod good codes) := by
  unfold State.startPeriod
  dsimp only
  refine Keeps.trans ?_ (keepsAll_ahead_nil _).toKeeps
  have judged := ((keeps_beginPeriod codes s).trans (quiet_countWrap _).keeps).trans (quiet_judgeSync good _).keeps
  exact List.foldlRecOn _ _ (motive := fun t => Keeps s t) judged fun t h ch _ => h.trans (keeps_channelPeriod _ codes ch t)

theorem staged_startPeriod {J : (Chan → Bool) → State → Prop} (staged : Staged J) (good : Bool) (codes : HighwayCodes)
    {s : State} (once : s.ahead.Nodup) (h : J everybody { s with hw := s.hw.advance }) :
    J nobody (s.startPeriod good codes) := by
  obtain ⟨begun, closes⟩ := staged_beginPeriod staged codes once h
  have quiet := (quiet_countWrap (s.beginPeriod codes)).trans (quiet_judgeSync good _)
  have closes := closes.trans quiet.closes
  have begun := staged.keeps quiet.keepsAll begun
  unfold State.startPeriod
  dsimp only
  refine staged.keeps (keepsAll_ahead_nil _) ?_
  generalize (s.beginPeriod codes).countWrap.judgeSync good = t at closes begun
  have work : Working J t.openChannels (lateAfter s.ahead.reverse) t :=
    { inv := begun
      open_ := fun ch hch => Option.isSome_iff_ne_none.mp ((mem_openChannels t ch).mp hch)
      here := fun ch hch => by
        have open_ := Option.isSome_iff_ne_none.mp ((mem_openChannels t ch).mp hch)
        rw [(closes ch open_).2]
        simp [lateAfter]
      past := fun ch open_ none => absurd ((mem_openChannels t ch).mpr (Option.isSome_iff_ne_none.mpr open_)) none }
  obtain ⟨late, done⟩ := working_foldl staged (s.hw.sync = .lost) codes t.openChannels (nodup_openChannels t) work
  refine staged.free (fun ch c hc => ?_) done.inv
  exact (done.past ch (fun none => absurd (hc.symm.trans none) (by simp)) List.not_mem_nil).symm

end Sys2Proof.Machine
end

section
/-! PROOF. OPEN, RESTART and HARDWARE_RESET keep every invariant (R6, R7, R20, R21). -/

namespace Sys2Proof.Machine

/-- Every invariant is kept between two events. -/
structure KeepsEach (s t : State) : Prop extends Keeps s t where
  uplink : UplinkPhaseInv s → UplinkPhaseInv t
  encode : EncodeInv s → EncodeInv t

theorem KeepsAll.each {s t : State} (h : KeepsAll s t) : KeepsEach s t :=
  { h.toKeeps with
    uplink := fun k => (uplinkPhaseInv_iff t).mpr (h.phase nobody ((uplinkPhaseInv_iff s).mp k))
    encode := fun k => (encodeInv_iff t).mpr (h.encode nobody ((encodeInv_iff s).mp k)) }

theorem KeepsEach.refl (s : State) : KeepsEach s s := (KeepsAll.refl s).each

theorem KeepsEach.trans {s t u : State} (h : KeepsEach s t) (k : KeepsEach t u) : KeepsEach s u :=
  { h.toKeeps.trans k.toKeeps with uplink := k.uplink ∘ h.uplink, encode := k.encode ∘ h.encode }

theorem Quiet.each {s t : State} (h : Quiet s t) : KeepsEach s t := h.keepsAll.each

/-! ## A call set up -/

/-- What an accepted OPEN has found: its channel FREE, its tag and its timeslot unused (R5). -/
structure Opens (s : State) (v : OpenValues) : Prop where
  chan : s.chan[v.chan] = none
  tag : s.tagMap[v.tag] = none
  slot : s.hw.bindings[slotNo v.highway v.timeslot] = none

/-- An entry of a map and its channel come together. -/
theorem map_set {n : Nat} {w : Vector (Option Chan) n} {table : Vector (Option Context) 256} {key : Context → Fin n}
    {ch : Chan} {d : Context} {at_ : Fin n} (hd : key d = at_) (hc : table[ch] = none) (hk : w[at_] = none)
    (h : ∀ (k : Fin n) (e : Chan), w[k] = some e ↔ ∃ x, table[e] = some x ∧ key x = k) (k : Fin n) (e : Chan) :
    (w.set at_ (some ch))[k] = some e ↔ ∃ x, (table.set ch (some d))[e] = some x ∧ key x = k := by
  subst hd
  rw [set_getElem_fin, set_getElem_fin]
  by_cases he : e = ch
  · subst he
    rw [if_pos rfl]
    by_cases hx : k = key d
    · subst hx
      simp
    · rw [if_neg hx]
      refine ⟨fun he => ?_, fun ⟨x, own, same⟩ => ?_⟩
      · obtain ⟨x, hx, _⟩ := (h k e).mp he
        exact absurd (hc.symm.trans hx) (by simp)
      · cases own
        exact absurd same.symm hx
  · rw [if_neg he]
    by_cases hx : k = key d
    · subst hx
      rw [if_pos rfl, ← h, hk]
      simp [Ne.symm he]
    · rw [if_neg hx, h]

/-- What holds of every open channel holds with one more. -/
theorem forall_opened {table : Vector (Option Context) 256} {ch : Chan} {d : Context} {p : Chan → Context → Prop}
    (new : p ch d) (h : ∀ (e : Chan) (x : Context), table[e] = some x → p e x) (e : Chan) (x : Context)
    (hx : (table.set ch (some d))[e] = some x) : p e x := by
  rw [set_getElem_fin] at hx
  split at hx
  · next he =>
    subst he
    cases hx
    exact new
  · exact h e x hx

section opening
variable {s : State} {v : OpenValues} (p : Profile) (phi now : Phase)

theorem openContext_fault (k : FaultKind) : (openContext v p phi now).fault k = .fresh := by
  show (Vector.replicate 7 FaultRecord.fresh)[k.index] = _
  simp

theorem faultsSound_openContext : (openContext v p phi now).FaultsSound := by
  have free : (openContext v p phi now).heldByFault = false :=
    (heldByFault_eq_false_iff _).mpr fun k => by rw [openContext_fault]; rfl
  refine ⟨fun k => by rw [openContext_fault]; exact ⟨rfl, rfl⟩, fun hs => ?_, fun _ => free⟩
  exact absurd (show CallState.aligning = .faulted from hs) (by decide)

theorem playoutSound_openContext : (openContext v p phi now).PlayoutSound :=
  ⟨fun _ => rfl, fun _ hx => absurd hx (by simp [openContext]), Nat.zero_le _, fun _ h => absurd h List.not_mem_nil⟩

theorem noiseSeed_ne_zero (ch : Chan) : noiseSeed ch ≠ 0 := by
  intro zero
  have small : ch.val < 2 ^ 15 := ch.isLt.trans (by decide)
  have top := congrArg (·.getLsbD 15) zero
  simp only [noiseSeed, BitVec.getLsbD_xor, BitVec.getLsbD_ofNat, Nat.testBit_lt_two_pow small] at top
  revert top
  decide

theorem isSample_of_mem_zeros {n : Nat} {x : Int} (h : x ∈ List.replicate n (0 : Int)) : IsSample x := by
  rw [List.eq_of_mem_replicate h]
  exact isSample_zero

theorem samplesSound_openContext : (openContext v p phi now).SamplesSound :=
  ⟨fun _ => isSample_of_mem_zeros, List.length_replicate, isSample_zero, isSample_zero, fun _ => isSample_of_mem_zeros,
    List.length_replicate, fun _ => isSample_of_mem_zeros, List.length_replicate, fun _ h => absurd h List.not_mem_nil,
    fun _ h => absurd h (by simp [openContext]), fun _ h => absurd h (by simp [openContext]), noiseSeed_ne_zero _⟩

theorem firstBlock_bounds : 1 ≤ firstBlock phi now ∧ firstBlock phi now ≤ 160 ∧
    (1 + now.val + firstBlock phi now) % 160 = phi.val := by
  have := phi.isLt
  have := now.isLt
  unfold firstBlock
  dsimp only
  split <;> omega

theorem inPhase_openContext : (openContext v p phi now).InPhase false now ∧
    (openContext v p phi now).nUp ≠ (openContext v p phi now).blockLen := by
  obtain ⟨least, most, phase⟩ := firstBlock_bounds phi now
  have nUp : (openContext v p phi now).nUp = 160 - firstBlock phi now := rfl
  have blockLen : (openContext v p phi now).blockLen = 160 := rfl
  have fresh : (openContext v p phi now).fresh = true := rfl
  have phiUp : (openContext v p phi now).phiUp = phi := rfl
  refine ⟨⟨by omega, by omega, by omega, fun _ => by omega, ?_, fun a ha => absurd ha (by simp [openContext])⟩, by omega⟩
  rw [nUp, blockLen, fresh, phiUp]
  simp only [if_true, Bool.false_eq_true, if_false]
  omega

theorem bucketOf_openPhase (buckets : Vector Nat 16) (ch : Chan) :
    bucketOf (openPhase buckets ch) = smallestBucket buckets := by
  have := (smallestBucket buckets).isLt
  apply Fin.ext
  simp only [bucketOf, openPhase, Fin.ofNat]
  omega

/-- The context of the call set up. -/
def State.newContext (v : OpenValues) (s : State) : Context :=
  openContext v (s.profiles[v.profile]) (openPhase s.eng.buckets v.chan) s.hw.c

theorem setUpCall_chan : (s.setUpCall v).chan = s.chan.set v.chan (some (s.newContext v)) := rfl

theorem setUpCall_chan_at (e : Chan) : (s.setUpCall v).chan[e] = if e = v.chan then some (s.newContext v) else s.chan[e] :=
  set_getElem_fin s.chan v.chan e _

theorem buckets_setUpCall (opens : Opens s v) (h : BucketsInv s) : BucketsInv (s.setUpCall v) := by
  refine buckets_setCtx setUpCall_chan (fun b => ?_) h
  show (raiseBucket (smallestBucket s.eng.buckets) 2 s.eng.buckets)[b] + _ = _
  have down : bucketOf (s.newContext v).phiDn = smallestBucket s.eng.buckets := bucketOf_openPhase _ _
  have up : bucketOf (s.newContext v).phiUp = smallestBucket s.eng.buckets := bucketOf_openPhase _ _
  rw [raiseBucket_at, opens.chan, bucketShare, bucketShare, down, up]
  by_cases hb : b = smallestBucket s.eng.buckets
  · rw [hb, if_pos rfl, if_pos rfl]
  · rw [if_neg hb, if_neg (Ne.symm hb)]

theorem modes_setUpCall (opens : Opens s v) (service : s.mode = .service) (h : ModeInv s) : ModeInv (s.setUpCall v) := by
  obtain ⟨_, _, held, closed⟩ := h
  refine ⟨fun m => absurd (service.symm.trans m) (by decide), fun m => absurd (service.symm.trans m) (by decide),
    fun g e hp => ?_, ?_⟩
  · obtain ⟨c, hc, hs⟩ := held g e hp
    refine ⟨c, ?_, hs⟩
    rw [setUpCall_chan_at, if_neg fun same => absurd (opens.chan.symm.trans (same ▸ hc)) (by simp)]
    exact hc
  · refine forall_opened (p := fun e x => x.state = .closing → ∃ g, s.ctl.proc = .holding g e) (fun hs => ?_) closed
    exact absurd (show CallState.aligning = .closing from hs) (by decide)

theorem phaseIn_setUpCall (opens : Opens s v) (h : PhaseIn nobody none s) : PhaseIn nobody none (s.setUpCall v) := by
  obtain ⟨expected, raised, once, contexts⟩ := h
  obtain ⟨begun, part⟩ : (s.newContext v).InPhase false s.hw.c ∧ (s.newContext v).nUp ≠ (s.newContext v).blockLen :=
    inPhase_openContext _ _ _
  refine ⟨expected, fun e => (raised e).trans (and_congr_right fun _ => ?_), once,
    forall_opened (p := fun e x => x.InPhase (nobody e) s.hw.c) begun contexts⟩
  rw [setUpCall_chan_at]
  by_cases he : e = v.chan
  · subst he
    rw [if_pos rfl, opens.chan]
    simp [part]
  · rw [if_neg he]

theorem encodeIn_setUpCall (opens : Opens s v) (h : EncodeIn nobody none s) : EncodeIn nobody none (s.setUpCall v) := by
  obtain ⟨phase, jobs, timely, once, made⟩ := h
  refine ⟨phaseIn_setUpCall opens phase, jobs, timely, once, fun e j hj own => ?_⟩
  obtain ⟨x, hx, settled, deadline⟩ := made e j hj own
  refine ⟨x, ?_, settled, deadline⟩
  rw [setUpCall_chan_at, if_neg fun same => absurd (opens.chan.symm.trans (same ▸ hx)) (by simp)]
  exact hx

theorem maps_setUpCall (opens : Opens s v) (h : MapsInv s) : MapsInv (s.setUpCall v) :=
  ⟨map_set (key := Context.tag) (d := s.newContext v) rfl opens.chan opens.tag h.1,
    map_set (key := fun x => slotNo x.highway x.timeslot) (d := s.newContext v) rfl opens.chan opens.slot h.2⟩

theorem keepsEach_setUpCall (opens : Opens s v) (service : s.mode = .service) : KeepsEach s (s.setUpCall v) where
  maps := maps_setUpCall opens
  egress h := LinkPort.Sound.markLeftOver h v.chan
  faults := forall_opened (p := fun _ x => x.FaultsSound) (faultsSound_openContext _ _ _)
  playout := forall_opened (p := fun _ x => x.PlayoutSound) (playoutSound_openContext _ _ _)
  samples h := ⟨forall_opened (p := fun _ x => x.SamplesSound) (samplesSound_openContext _ _ _) h.1, h.2⟩
  buckets := buckets_setUpCall opens
  modes := modes_setUpCall opens service
  uplink h := (uplinkPhaseInv_iff _).mpr (phaseIn_setUpCall opens ((uplinkPhaseInv_iff s).mp h))
  encode h := (encodeInv_iff _).mpr (encodeIn_setUpCall opens ((encodeInv_iff s).mp h))

end opening

/-! ## A part without calls -/

section reset
variable {s t : State}

/-- With every channel FREE and no entry in the maps, no job and nothing raised, the invariants of the calls and the jobs hold
of themselves. -/
structure Empty (t : State) : Prop where
  chan : t.chan = Vector.replicate 256 none
  tagMap : t.tagMap = Vector.replicate 4096 none
  bindings : t.hw.bindings = Vector.replicate 256 none
  eng : t.eng = EngineBlock.reset
  due : t.due = []
  ahead : t.ahead = []
  slots : t.link.slots = Vector.replicate 256 none
  txQueue : t.link.txQueue = []
  sending : t.link.sending = none

theorem Empty.free (h : Empty t) (ch : Chan) : t.chan[ch] = none := by
  rw [h.chan]
  simp

theorem Empty.forall (h : Empty t) {p : Chan → Context → Prop} (ch : Chan) (c : Context) (hc : t.chan[ch] = some c) : p ch c :=
  absurd ((h.free ch).symm.trans hc) (by simp)

theorem reset_engine (e : EngineNo) : EngineBlock.reset.engines[e] = none := by
  show (Vector.replicate 4 (none : Option Running))[e] = none
  simp

theorem not_holds_reset (j : Job) : ¬ EngineBlock.reset.Holds j := by
  rintro (hq | ⟨e, r, hr, _⟩)
  · cases hq
  · rw [reset_engine] at hr
    cases hr

theorem Empty.maps (h : Empty t) : MapsInv t := by
  constructor
  · intro k ch
    rw [h.tagMap, h.free]
    simp
  · intro k ch
    rw [h.bindings, h.free]
    simp

theorem Empty.egress (h : Empty t) : EgressInv t := LinkPort.Sound.empty h.slots h.txQueue h.sending

theorem Empty.engines (h : Empty t) (expected : 125000 ≤ t.hw.expected) : EnginesInv t := by
  rw [enginesInv_iff, h.eng]
  refine ⟨expected, ⟨fun j hj => absurd hj (not_holds_reset j), List.Pairwise.nil, fun e r hr => ?_, fun ch => ?_⟩,
    fun some => absurd rfl some⟩
  · rw [reset_engine] at hr
    cases hr
  · rw [held_eq_zero fun j hj => absurd hj (not_holds_reset j)]
    exact Nat.zero_le _

theorem Empty.buckets (h : Empty t) : BucketsInv t := by
  intro b
  have zero : ∀ ch : Chan, bucketShare b t.chan[ch] = 0 := fun ch => by rw [h.free]; rfl
  simp only [zero, h.eng]
  show (Vector.replicate 16 0)[b] = _
  simp

theorem Empty.samples (h : Empty t) : SamplesInv t := by
  refine ⟨h.forall, ?_⟩
  rw [h.eng]
  refine ⟨fun j hj => absurd hj List.not_mem_nil, fun e r hr => ?_⟩
  rw [reset_engine] at hr
  cases hr

theorem Empty.phaseIn (h : Empty t) (expected : 125000 ≤ t.hw.expected) : PhaseIn nobody none t := by
  refine ⟨expected, fun ch => ?_, by rw [h.ahead]; exact List.nodup_nil, h.forall⟩
  rw [h.due, h.free]
  simp

theorem Empty.encodeIn (h : Empty t) (expected : 125000 ≤ t.hw.expected) : EncodeIn nobody none t := by
  refine ⟨h.phaseIn expected, h.engines expected, ?_, fun ch => ?_, fun ch j hj => ?_⟩
  · rw [h.eng]
    refine ⟨fun j hj => absurd hj List.not_mem_nil, fun e r hr => ?_⟩
    rw [reset_engine] at hr
    cases hr
  · rw [h.eng, held_eq_zero fun j hj => absurd hj (not_holds_reset j)]
    exact Nat.zero_le _
  · rw [h.eng] at hj
    exact absurd hj (not_holds_reset j)

theorem Empty.modes (h : Empty t) (drain : t.mode ≠ .drain) (idle : t.ctl.proc = .idle) : ModeInv t :=
  ⟨fun _ => h.free, fun m => absurd m drain, fun _ _ hp => absurd (idle.symm.trans hp) (by simp), h.forall⟩

/-- RESTART, taken by the idle processor (R20). -/
theorem keepsEach_restarted (idle : s.ctl.proc = .idle) : KeepsEach s s.restarted :=
  have empty : Empty s.restarted := ⟨rfl, rfl, rfl, rfl, rfl, rfl, rfl, rfl, rfl⟩
  { profiles := id
    maps := fun _ => empty.maps
    egress := fun _ => empty.egress
    control := fun h => by
      rw [controlInv_iff] at *
      obtain ⟨⟨rx, _, _, _, _, quiet, more⟩, rest⟩ := h
      exact ⟨⟨rx, Nat.zero_le _, fun _ hm => absurd hm List.not_mem_nil, noticesSound_nil, show (0#8).getLsbD 7 = false by decide,
        fun ht => ⟨(quiet ht).1, rfl⟩, more⟩, rest⟩
    faults := fun _ => empty.forall
    engines := fun h => empty.engines h.1
    buckets := fun _ => empty.buckets
    playout := fun _ => empty.forall
    samples := fun _ => empty.samples
    modes := fun _ => empty.modes (show (if s.mode = .drain then Mode.setup else s.mode) ≠ .drain by
      split
      · decide
      · assumption) idle
    uplink := fun h => (uplinkPhaseInv_iff _).mpr (empty.phaseIn h.1)
    encode := fun h => (encodeInv_iff _).mpr (empty.encodeIn h.1.1) }

theorem inRange_default : Profile.default.InRange := by
  refine ⟨.inl rfl, by decide, by decide, by decide, by decide, by decide, by decide, by decide, by decide, by decide,
    by decide, by decide, by decide, by decide, ?_⟩
  decide

theorem profiles_reset {t : State} (h : t.profiles = Vector.replicate 16 .default) : ProfilesInv t := by
  have each : ∀ n : ProfileNo, t.profiles[n] = Profile.default := fun n => by rw [h]; simp
  exact ⟨each 0, fun n => by rw [each]; exact inRange_default⟩

theorem control_reset {t : State} {line : LineSettings} (ctl : t.ctl = .reset) (settings : t.settings = .reset line)
    (history : t.history = []) : ControlInv t := by
  rw [controlInv_iff, ctl, settings, history]
  refine ⟨⟨trivial, Nat.zero_le _, fun _ h => absurd h List.not_mem_nil, noticesSound_nil, by decide, fun _ => ⟨rfl, rfl⟩,
    fun h => absurd h (by decide), fun h => absurd h (by decide), fun _ _ _ => rfl⟩, ?_, Nat.zero_le _⟩
  show ∀ k : Fin 7, (#v[3, 1, 2, 2, 1, 2, 1] : Vector Nat 7)[k] ≤ 3
  decide

/-- The state after hardware reset meets every invariant, whatever waits and whatever the link's line last saw (R21). -/
theorem sound_reset (start law line : Bool) (delimiter : Delimiter) (waiting : List Instr) (n : Nat) :
    State.Sound { State.resetWith start law line with
      link := { LinkPort.reset with lastDelimiter := delimiter }, pending := waiting, freeCount := n } := by
  generalize ht : ({ State.resetWith start law line with
      link := { LinkPort.reset with lastDelimiter := delimiter }, pending := waiting, freeCount := n } : State) = t
  have empty : Empty t := by subst ht; exact ⟨rfl, rfl, rfl, rfl, rfl, rfl, rfl, rfl, rfl⟩
  have expected : 125000 ≤ t.hw.expected := by subst ht; exact le_rfl
  have profiles : ProfilesInv t := profiles_reset (by subst ht; rfl)
  have control : ControlInv t := control_reset (line := strapLine line) (by subst ht; rfl) (by subst ht; rfl) (by subst ht; rfl)
  have mode : t.mode ≠ .drain := by subst ht; cases start <;> simp [State.resetWith]
  have idle : t.ctl.proc = .idle := by subst ht; rfl
  exact ⟨profiles, empty.maps, empty.egress, control, empty.forall, empty.engines expected, empty.modes mode idle,
    empty.buckets, empty.forall, empty.samples, (uplinkPhaseInv_iff t).mpr (empty.phaseIn expected),
    (encodeInv_iff t).mpr (empty.encodeIn expected)⟩

/-- An invariant that holds of the new state anyway is kept. -/
theorem keepsEach_of_sound (h : t.Sound) : KeepsEach s t := by
  obtain ⟨profiles, maps, egress, control, faults, engines, modes, buckets, playout, samples, uplink, encode⟩ := h
  exact ⟨⟨⟨fun _ => profiles, fun _ => maps, fun _ => egress, fun _ => control, fun _ => faults, fun _ => engines,
    fun _ => buckets, fun _ => playout, fun _ => samples⟩, fun _ => modes⟩, fun _ => uplink, fun _ => encode⟩

end reset

end Sys2Proof.Machine
end

section
/-! PROOF. Every command keeps every invariant, and so does every step: O4 to O15. -/

namespace Sys2Proof.Machine

/-! ## The orders -/

theorem keepsEach_answer {s : State} (idle : s.ctl.proc = .idle) (o : Message) (r : Result) (more : List Byte) :
    KeepsEach s (s.answer o r more) := (keepsAll_answer idle o r more).each

/-- A quiet change, answered. -/
theorem Quiet.answered {s t : State} (h : Quiet s t) (idle : s.ctl.proc = .idle) (o : Message) (r : Result)
    (more : List Byte) : KeepsEach s (t.answer o r more) :=
  h.each.trans (keepsEach_answer (h.proc.trans idle) o r more)

/-- The processor takes an order: idle, with the answer slot free, in a mode that admits it (R176). -/
theorem keepsEach_runOrder (kind : Nat) {act : Message → State → State} (s : State)
    (h : ∀ (o : Message) (t : State), t.ctl.proc = .idle → t.ctl.answer = none → modeAdmits t.mode kind = true →
      KeepsEach t (act o t)) : KeepsEach s (s.runOrder kind act) := by
  unfold State.runOrder
  split
  · exact .refl s
  · next o next =>
    split
    · have ready : s.ctl.proc = .idle ∧ s.ctl.answer = none := by
        unfold State.nextOrder at next
        split at next
        · next idle free => exact ⟨idle, free⟩
        · cases next
      have taken := quiet_takeOrder s
      have idle : s.takeOrder.ctl.proc = .idle := ready.1
      dsimp only
      split
      · exact taken.answered ready.1 o _ _
      · split
        · exact taken.answered ready.1 o _ _
        · next admitted => exact taken.each.trans (h o _ idle ready.2 (by simpa using admitted))
    · exact .refl s

section orders
variable {o : Message} {s : State} (idle : s.ctl.proc = .idle)
include idle

theorem keepsEach_setMode : KeepsEach s (s.orderSetMode o) := by
  unfold State.orderSetMode
  split
  · exact keepsEach_answer idle _ _ _
  · split
    · exact keepsEach_answer idle _ _ _
    · next m hm =>
      refine (keepsAll_mode hm).each.trans (keepsEach_answer ?_ _ _ _)
      exact idle

theorem keepsEach_setHighway : KeepsEach s (s.orderSetHighway o) := by
  unfold State.orderSetHighway
  dsimp only
  split
  · split
    · split
      · exact (quiet_records _ s).answered idle _ _ _
      · exact keepsEach_answer idle _ _ _
    · exact keepsEach_answer idle _ _ _
  · exact keepsEach_answer idle _ _ _

theorem keepsEach_setProfile : KeepsEach s (s.orderSetProfile o) := by
  unfold State.orderSetProfile
  dsimp only
  split
  · next hn =>
    split
    · exact keepsEach_answer idle _ _ _
    · next zero =>
      split
      · exact keepsEach_answer idle _ _ _
      · next p hp => exact (quiet_writeProfile hn zero s hp).answered idle _ _ _
  · exact keepsEach_answer idle _ _ _

theorem keepsEach_getProfile : KeepsEach s (s.orderGetProfile o) := by
  unfold State.orderGetProfile
  dsimp only
  split
  · exact keepsEach_answer idle _ _ _
  · exact keepsEach_answer idle _ _ _

theorem keepsEach_setDevice : KeepsEach s (s.orderSetDevice o) := by
  unfold State.orderSetDevice
  dsimp only
  split
  · exact keepsEach_answer idle _ _ _
  · split
    · exact keepsEach_answer idle _ _ _
    · split
      · exact keepsEach_answer idle _ _ _
      · next d hd => exact (quiet_settings s (levels_write hd)).answered idle _ _ _

theorem keepsEach_setLine : KeepsEach s (s.orderSetLine o) := by
  unfold State.orderSetLine
  split
  · exact (keepsAll_answerLine idle _ _ _ _).each
  · exact keepsEach_answer idle _ _ _

theorem keepsEach_modify : KeepsEach s (s.orderModify o) := by
  unfold State.orderModify
  split
  · exact keepsEach_answer idle _ _ _
  · dsimp only
    split
    · exact (quiet_gains _ _ _ s).answered idle _ _ _
    · exact keepsEach_answer idle _ _ _

theorem keepsEach_orderClose (free : s.ctl.answer = none) : KeepsEach s (s.orderClose o) := by
  unfold State.orderClose
  split
  · exact keepsEach_answer idle _ _ _
  · next open_ => exact (keepsAll_close idle free (by simpa using open_) o.tag).each

theorem keepsEach_query : KeepsEach s (s.orderQuery o) := by
  unfold State.orderQuery
  split
  · exact keepsEach_answer idle _ _ _
  · exact keepsEach_answer idle _ _ _

theorem keepsEach_clearFaults : KeepsEach s (s.orderClearFaults o) := by
  unfold State.orderClearFaults
  split
  · have all := quiet_clearAll s
    unfold State.answerClearAll
    dsimp only
    split
    · exact all.answered idle _ _ _
    · exact all.answered idle _ _ _
  · split
    · exact keepsEach_answer idle _ _ _
    · have one := quiet_clearChannel o.chanAt s
      unfold State.answerClear
      split
      · exact one.answered idle _ _ _
      · split
        · exact one.answered idle _ _ _
        · exact one.answered idle _ _ _

theorem keepsEach_clearHistory : KeepsEach s (s.orderClearHistory o) :=
  (quiet_history [] s fun _ => Nat.zero_le _).answered idle _ _ _

theorem keepsEach_ackNotices : KeepsEach s (s.orderAckNotices o) := by
  unfold State.orderAckNotices
  dsimp only
  split
  · exact keepsEach_answer idle _ _ _
  · exact (quiet_ackFlags (o.at 0) s).answered idle _ _ _

theorem keepsEach_orderRestart : KeepsEach s (s.orderRestart o) :=
  (keepsEach_restarted idle).trans (keepsEach_answer (s := s.restarted) idle _ _ _)

omit idle in
/-- An OPEN that passes its checks has found its channel, its tag and its timeslot free. -/
theorem opens_of_checkOpen {v : OpenValues} (h : s.checkOpen o = .ok v) : Opens s v := by
  unfold State.checkOpen at h
  dsimp only at h
  split at h
  · cases h
  split at h
  · cases h
  next free =>
  split at h
  · split at h
    · cases h
    next untagged =>
    split at h
    · split at h
      · cases h
      split at h
      · split at h
        · cases h
        split at h
        · cases h
        next unbound =>
        split at h
        · cases h
          exact ⟨by simpa using free, by simpa using untagged, by simpa using unbound⟩
        · cases h
      · cases h
    · cases h
  · cases h

theorem keepsEach_orderOpen (admitted : modeAdmits s.mode 0x08 = true) : KeepsEach s (s.orderOpen o) := by
  have service : s.mode = .service := by
    cases hm : s.mode with
    | service => rfl
    | setup | drain => rw [hm] at admitted; cases admitted
  unfold State.orderOpen
  split
  · exact keepsEach_answer idle _ _ _
  · next v hv =>
    have opens := opens_of_checkOpen hv
    have marked := quiet_markedAtOpen v.chan v.profile s
    have still : Opens (if (s.profiles[v.profile]).rateDisagrees then s.markDefaulted v.chan v.profile else s) v :=
      ⟨marked.free opens.chan, by rw [marked.tagMap]; exact opens.tag, by rw [marked.bindings]; exact opens.slot⟩
    have called := keepsEach_setUpCall still (marked.mode.trans service)
    have found := quiet_openConditions v.chan (State.setUpCall v
      (if (s.profiles[v.profile]).rateDisagrees then s.markDefaulted v.chan v.profile else s))
    refine ((marked.each.trans called).trans found.each).trans (keepsEach_answer ?_ _ _ _)
    rw [found.proc]
    exact marked.proc.trans idle

end orders

/-! ## The events of calls and jobs -/

theorem keepsAll_noteAhead (d : Due) (s : State) : KeepsAll s (s.noteAhead d) := by
  unfold State.noteAhead
  split
  · next noted =>
    simp only [Bool.and_eq_true, Bool.not_eq_true', ← Bool.not_eq_true, List.contains_iff_mem] at noted
    have once : ∀ {ds : List Due}, ds = s.ahead → ds.Nodup → (ds ++ [d]).Nodup := fun same h =>
      List.nodup_append.mpr ⟨h, List.nodup_singleton d, fun a ha b hb heq => noted.2 (by
        rw [List.mem_singleton.mp hb] at heq
        rw [← heq, ← same]
        exact ha)⟩
    exact
      { phase := fun _ h => ⟨h.1, h.2.1, once rfl h.2.2.1, h.2.2.2⟩
        encode := fun _ h => ⟨⟨h.1.1, h.1.2.1, once rfl h.1.2.2.1, h.1.2.2.2⟩, h.2⟩ }
  · exact .refl s

theorem keepsAll_commandEvent (d : Due) (s : State) : KeepsAll s (s.commandEvent d) := by
  unfold State.commandEvent
  split
  · next due => exact keepsAll_takeEvent due
  · exact keepsAll_noteAhead d s

theorem keepsAll_takeCompletion (e : EngineNo) (s : State) : KeepsAll s (s.takeCompletion e) := by
  unfold State.takeCompletion
  split
  · exact .refl s
  · split
    · exact (keepsAll_advanceTo _ s).trans (quiet_completeJob e _).keepsAll
    · exact .refl s

theorem keepsAll_takeJobDeadline (ch : Chan) (kind : JobKind) (s : State) : KeepsAll s (s.takeJobDeadline ch kind) := by
  unfold State.takeJobDeadline
  dsimp only
  split
  · exact (quiet_takeDeadline _ ch kind s).keepsAll
  · split
    · exact (keepsAll_advanceTo _ s).trans (quiet_takeDeadline _ ch kind _).keepsAll
    · exact .refl s

/-! ## The period starts -/

/-- A period that ends where a good pulse or a missing one ends it, and the start of the next. -/
theorem keepsEach_period {s : State} {tNs : Nat} (good : s.hw.expected ≤ tNs + 15000) (pulse : Bool) (codes : HighwayCodes) :
    KeepsEach s ((s.endPeriod tNs).startPeriod pulse codes) :=
  have ended := keepsAll_endPeriod good
  { ended.toKeeps.trans (keeps_startPeriod pulse codes _) with
    uplink := fun h => by
      have h := (uplinkPhaseInv_iff s).mp h
      have phase := ended.phase nobody h
      exact (uplinkPhaseInv_iff _).mpr (staged_startPeriod staged_phaseIn pulse codes phase.2.2.1
        (phaseIn_advance (boundariesTaken_endPeriod good h.1) phase))
    encode := fun h => by
      have h := (encodeInv_iff s).mp h
      have jobs := ended.encode nobody h
      obtain ⟨deadlines, completions⟩ := jobsTaken_endPeriod good h.2.1
      exact (encodeInv_iff _).mpr (staged_startPeriod staged_encodeIn pulse codes jobs.1.2.2.1
        (encodeIn_advance (boundariesTaken_endPeriod good h.1.1) deadlines completions jobs)) }

theorem quiet_reaim (tNs : Nat) (s : State) : Quiet s { s with hw := s.hw.reaim tNs } where
  chan _ := rel_calm_refl _
  expected _ := Nat.le_add_left _ _

theorem keepsEach_takePulse (tNs : Nat) (codes : HighwayCodes) (s : State) : KeepsEach s (s.takePulse tNs codes) := by
  unfold State.takePulse
  split
  · next good =>
    simp only [HighwayBlock.goodPulse, Bool.and_eq_true, decide_eq_true_eq] at good
    exact keepsEach_period good.1 true codes
  · split
    · exact (quiet_reaim tNs s).each
    · exact .refl s

/-! ## Every command -/

/-- A command that finishes the event last taken and then acts. -/
theorem keepsEach_finish_then {s t : State} (h : KeepsEach s.finish t) : KeepsEach s t := (quiet_finish s).each.trans h

theorem keepsEach_exec (i : Instr) {s t : State} (h : exec i s = .next t) : KeepsEach s t := by
  have order : ∀ (kind : Nat) {act : Message → State → State}, (∀ (o : Message) (u : State), u.ctl.proc = .idle →
      u.ctl.answer = none → modeAdmits u.mode kind = true → KeepsEach u (act o u)) →
      KeepsEach s (s.finish.runOrder kind act) := fun kind _ act => keepsEach_finish_then (keepsEach_runOrder kind s.finish act)
  have quiet : ∀ {u : State}, Quiet s.finish u → KeepsEach s u := fun k => keepsEach_finish_then k.each
  cases i <;> cases h
  case hardwareReset start law line => exact keepsEach_of_sound (sound_reset start law line _ s.pending s.freeCount)
  case fsyncPulse tNs codes => exact keepsEach_finish_then (keepsEach_takePulse tNs codes _)
  case missingPeriodStart codes => exact keepsEach_finish_then (keepsEach_period (Nat.le_add_right _ _) false codes)
  case uplinkBoundary ch => exact keepsEach_finish_then (keepsAll_commandEvent _ _).each
  case downlinkBoundary ch => exact keepsEach_finish_then (keepsAll_commandEvent _ _).each
  case supervisionWindowEnd ch => exact (quiet_takeRestUpTo _ s).each
  case retryTimerExpiry ch => exact (quiet_takeRestUpTo _ s).each
  case outputBlockStart ch => exact keepsEach_finish_then (keepsAll_commandEvent _ _).each
  case jobCompletion e => exact keepsEach_finish_then (keepsAll_takeCompletion e _).each
  case jobDeadline ch kind => exact keepsEach_finish_then (keepsAll_takeJobDeadline ch kind _).each
  case loadWindowEnd => exact keepsEach_finish_then (keepsAll_takeIfDue _ _).each
  case linkFrameArrival bytes =>
    refine quiet ?_
    split
    · exact .refl _
    · exact quiet_takeUnit bytes _
  case unitAborted => exact quiet (quiet_cutUnit _)
  case observationWindowEnd ch => exact (quiet_takeRestUpTo _ s).each
  case carrierLost =>
    refine quiet ?_
    split
    · exact .refl _
    · exact quiet_linkDown _
  case carrierGained =>
    refine quiet ?_
    split
    · exact quiet_linkUp _
    · exact .refl _
  case pauseIndication =>
    refine quiet ?_
    split
    · exact quiet_linkPaused _
    · exact .refl _
  case resumeIndication =>
    refine quiet ?_
    split
    · exact quiet_linkResumed _
    · exact .refl _
  case linkTransmissionEnd => exact quiet (quiet_link _ fun h => h.endTransmission)
  case controlMessageReceived b tail => exact quiet (quiet_receiveByte quiet_completeMessage _ _)
  case gapTimeout => exact quiet (quiet_abandonMessage _)
  case badCountByte b tail => exact quiet (quiet_receiveByte quiet_refuseCount _ _)
  case controlTransmitEnd => exact quiet (quiet_endControlMessage _)
  case identify => exact order 0x01 fun _ _ idle _ _ => keepsEach_answer idle _ _ _
  case readStatus => exact order 0x02 fun _ _ idle _ _ => keepsEach_answer idle _ _ _
  case setMode => exact order 0x03 fun _ _ idle _ _ => keepsEach_setMode idle
  case setHighway => exact order 0x04 fun _ _ idle _ _ => keepsEach_setHighway idle
  case setProfile => exact order 0x05 fun _ _ idle _ _ => keepsEach_setProfile idle
  case getProfile => exact order 0x06 fun _ _ idle _ _ => keepsEach_getProfile idle
  case setDevice => exact order 0x07 fun _ _ idle _ _ => keepsEach_setDevice idle
  case openCall => exact order 0x08 fun _ _ idle _ admitted => keepsEach_orderOpen idle admitted
  case modify => exact order 0x09 fun _ _ idle _ _ => keepsEach_modify idle
  case close => exact order 0x0A fun _ _ idle free _ => keepsEach_orderClose idle free
  case query => exact order 0x0B fun _ _ idle _ _ => keepsEach_query idle
  case clearFaults => exact order 0x0C fun _ _ idle _ _ => keepsEach_clearFaults idle
  case readHistory => exact order 0x0D fun _ _ idle _ _ => keepsEach_answer idle _ _ _
  case clearHistory => exact order 0x0E fun _ _ idle _ _ => keepsEach_clearHistory idle
  case ackNotices => exact order 0x0F fun _ _ idle _ _ => keepsEach_ackNotices idle
  case restart => exact order 0x10 fun _ _ idle _ _ => keepsEach_orderRestart idle
  case setLine => exact order 0x11 fun _ _ idle _ _ => keepsEach_setLine idle
  case startMarker => exact quiet (quiet_receiveByte quiet_markStart _ _)
  case countByte b => exact quiet (quiet_receiveByte quiet_takeCount _ _)
  case bodyByte b tail => exact quiet (quiet_receiveByte quiet_storeByte _ _)
  case unknownOrder =>
    refine keepsEach_finish_then ?_
    unfold State.runUnknownOrder
    split
    · exact .refl _
    · next o next =>
      split
      · exact .refl _
      · have idle : s.finish.ctl.proc = .idle := by
          unfold State.nextOrder at next
          split at next
          · next idle _ => exact idle
          · cases next
        exact (quiet_takeOrder s.finish).answered idle _ _ _
  case startDelimiter =>
    refine quiet ?_
    split
    · exact .refl _
    · exact quiet_link _ id

theorem keepsEach_step {s t : State} (h : step s = .next t) : KeepsEach s t := by
  unfold step at h
  split at h
  · cases h
    exact .refl s
  · next i rest _ =>
    have taken : KeepsEach s { s with pending := rest } := KeepsAll.each (s := s) (t := { s with pending := rest }) {}
    exact taken.trans (keepsEach_exec i h)

/-! ## The obligations -/

/-- Settles O4: every step keeps every invariant, this one among them. -/
theorem stepKeepsProfiles : Obligations.StepKeepsProfiles := fun _ _ h step => (keepsEach_step step).profiles h

/-- Settles O5. -/
theorem stepKeepsMaps : Obligations.StepKeepsMaps := fun _ _ h step => (keepsEach_step step).maps h

/-- Settles O6. -/
theorem stepKeepsEgress : Obligations.StepKeepsEgress := fun _ _ h step => (keepsEach_step step).egress h

/-- Settles O7. -/
theorem stepKeepsControlLine : Obligations.StepKeepsControlLine := fun _ _ h step => (keepsEach_step step).control h

/-- Settles O8. -/
theorem stepKeepsFaultRecords : Obligations.StepKeepsFaultRecords := fun _ _ h step => (keepsEach_step step).faults h

/-- Settles O9. -/
theorem stepKeepsEngines : Obligations.StepKeepsEngines := fun _ _ h step => (keepsEach_step step).engines h

/-- Settles O10. -/
theorem stepKeepsModes : Obligations.StepKeepsModes := fun _ _ h step => (keepsEach_step step).modes h

/-- Settles O11. -/
theorem stepKeepsBuckets : Obligations.StepKeepsBuckets := fun _ _ h step => (keepsEach_step step).buckets h

/-- Settles O12. -/
theorem stepKeepsPlayout : Obligations.StepKeepsPlayout := fun _ _ h step => (keepsEach_step step).playout h

/-- Settles O13. -/
theorem stepKeepsSamples : Obligations.StepKeepsSamples := fun _ _ h step => (keepsEach_step step).samples h

/-- Settles O14. -/
theorem stepKeepsUplinkPhase : Obligations.StepKeepsUplinkPhase := fun _ _ h step => (keepsEach_step step).uplink h

/-- Settles O15. -/
theorem stepKeepsOneEncode : Obligations.StepKeepsOneEncode := fun _ _ h step => (keepsEach_step step).encode h

end Sys2Proof.Machine
end

section
/-! PROOF. The order processor (R176, R170, R180): when a command's order is taken, how each row checks its kind, length and
mode, and the orders that answer, set the mode or write the configuration (O47 to O50, O52, O57). -/

namespace Sys2Proof.Machine

/-! ## Taking an order -/

theorem OrderReady.next {s : State} {o : Message} (ready : OrderReady s o) : s.nextOrder = some o := by
  simp [State.nextOrder, ready.idle, ready.free, ready.head]

/-- No order can be taken while the processor holds one, the answer slot is full or the buffer is empty (R176). -/
theorem nextOrder_eq_none {s : State} (h : s.ctl.proc ≠ .idle ∨ s.ctl.answer ≠ none ∨ s.ctl.buffer = []) :
    s.nextOrder = none := by
  unfold State.nextOrder
  split
  · next idle free =>
    rcases h with busy | full | empty
    · exact absurd idle busy
    · exact absurd free full
    · rw [empty]
      rfl
  · rfl

/-- The order taken is the oldest (R176). -/
theorem head_of_nextOrder {s : State} {o : Message} (h : s.nextOrder = some o) : s.ctl.buffer.head? = some o := by
  unfold State.nextOrder at h
  split at h
  · exact h
  · cases h

/-- An order of the command's kind whose length and mode pass is left to its own checks and acts. -/
theorem runOrder_admitted {kind : Nat} {act : Message → State → State} {s : State} {o : Message} (ready : OrderReady s o)
    (hk : o.kind.toNat = kind) (length : bodyLengthOk kind o.body.length = true) (mode : modeAdmits s.mode kind = true) :
    s.finish.runOrder kind act = act o s.takeOrder := by
  rw [runOrder_of_ready kind act ready hk, length, mode]
  rfl

/-! ## The rows of the catalogue -/

/-- Each row runs the order of its kind. -/
theorem exec_row {r : OrderRow} (h : r ∈ orderCatalogue) :
    ∃ act, ∀ s, exec r.row s = .next (s.finish.runOrder r.kind act) := by
  simp only [orderCatalogue, List.mem_cons, List.not_mem_nil, or_false] at h
  rcases h with rfl | rfl | rfl | rfl | rfl | rfl | rfl | rfl | rfl | rfl | rfl | rfl | rfl | rfl | rfl | rfl | rfl <;>
    exact ⟨_, fun _ => rfl⟩

/-- The length check of a row; SET HIGHWAY's alone has no upper bound of its own. -/
theorem bodyLengthOk_row {r : OrderRow} (h : r ∈ orderCatalogue) (n : Nat) :
    bodyLengthOk r.kind n = true ↔ r.least ≤ n ∧ (n ≤ r.greatest ∨ r.kind = 0x04) := by
  simp only [orderCatalogue, List.mem_cons, List.not_mem_nil, or_false] at h
  rcases h with rfl | rfl | rfl | rfl | rfl | rfl | rfl | rfl | rfl | rfl | rfl | rfl | rfl | rfl | rfl | rfl | rfl <;>
    simp [bodyLengthOk] <;> omega

/-- The mode check of a row. -/
theorem modeAdmits_row {r : OrderRow} (h : r ∈ orderCatalogue) (m : Mode) : modeAdmits m r.kind = r.admits m := by
  have all : ∀ r ∈ orderCatalogue, ∀ m ∈ [Mode.setup, .service, .drain], modeAdmits m r.kind = r.admits m := by decide
  exact all r h m (by cases m <;> simp)

theorem kind_row {r : OrderRow} (h : r ∈ orderCatalogue) : 1 ≤ r.kind ∧ r.kind ≤ 0x11 := by
  have all : ∀ r ∈ orderCatalogue, 1 ≤ r.kind ∧ r.kind ≤ 0x11 := by decide
  exact all r h

/-- An order of no known kind is answered UNKNOWN_ORDER. -/
theorem runUnknownOrder_of_unknown {s : State} {o : Message} (h : s.nextOrder = some o)
    (unknown : o.kind.toNat = 0 ∨ 0x11 < o.kind.toNat) : s.runUnknownOrder = s.answered o .unknownOrder [] := by
  have outside : (1 ≤ o.kind.toNat && o.kind.toNat ≤ 0x11) = false := by
    rw [Bool.and_eq_false_iff]
    simp only [decide_eq_false_iff_not]
    omega
  rw [State.runUnknownOrder, h]
  dsimp only
  rw [outside]
  exact takeOrder_answer s o _ _

/-- The row of unknown orders leaves every other order alone. -/
theorem runUnknownOrder_of_known {s : State} (h : ∀ o, s.nextOrder = some o → 1 ≤ o.kind.toNat ∧ o.kind.toNat ≤ 0x11) :
    s.runUnknownOrder = s := by
  unfold State.runUnknownOrder
  split
  · rfl
  · next o ho =>
    obtain ⟨low, high⟩ := h o ho
    rw [if_pos (by simp [low, high])]

/-- Settles O47: the checks of `runOrder_of_ready` in their order, row by row of the catalogue; and an order that cannot be
taken, or of another kind, leaves a row without effect. -/
theorem ordersAreAdmittedInOrder : Obligations.OrdersAreAdmittedInOrder := by
  refine ⟨fun s o ready unknown => ?_, fun s o r ready row kind => ⟨fun length => ?_, fun least greatest refused => ?_⟩,
    fun s r rest row => ⟨fun h => ?_, fun h => ?_⟩⟩
  · change Host.Outcome.next s.finish.runUnknownOrder = _
    rw [finish_of_rest_nil s ready.rest, runUnknownOrder_of_unknown ready.next unknown]
  · obtain ⟨act, run⟩ := exec_row row
    have wrong : bodyLengthOk r.kind o.body.length = false := by
      rw [Bool.eq_false_iff, ne_eq, bodyLengthOk_row row]
      omega
    rw [run, runOrder_of_ready r.kind act ready kind, wrong]
    rfl
  · obtain ⟨act, run⟩ := exec_row row
    rw [run, runOrder_of_ready r.kind act ready kind, (bodyLengthOk_row row _).mpr ⟨least, .inl greatest⟩,
      modeAdmits_row row, refused]
    rfl
  · obtain ⟨act, run⟩ := exec_row row
    rw [run, finish_of_rest_nil s rest]
    refine congrArg _ (runOrder_of_not_ready r.kind act fun o next same => ?_)
    rcases h with h | h | h | ⟨x, head, other⟩
    · simp [nextOrder_eq_none (.inl h)] at next
    · simp [nextOrder_eq_none (.inr (.inl h))] at next
    · simp [nextOrder_eq_none (.inr (.inr h))] at next
    · cases head.symm.trans (head_of_nextOrder next)
      exact other same
  · change Host.Outcome.next s.finish.runUnknownOrder = _
    rw [finish_of_rest_nil s rest]
    refine congrArg _ (runUnknownOrder_of_known fun o next => ?_)
    rcases h with h | h | h | ⟨x, head, known⟩
    · simp [nextOrder_eq_none (.inl h)] at next
    · simp [nextOrder_eq_none (.inr (.inl h))] at next
    · simp [nextOrder_eq_none (.inr (.inr h))] at next
    · cases head.symm.trans (head_of_nextOrder next)
      rw [known]
      exact kind_row row

/-! ## The bytes of a body -/

section bodies
variable {o : Message}

theorem at_zero {a : Byte} {rest : List Byte} (h : o.body = a :: rest) : o.at 0 = a := by simp [Message.at, h]
theorem at_one {a b : Byte} {rest : List Byte} (h : o.body = a :: b :: rest) : o.at 1 = b := by simp [Message.at, h]
theorem at_two {a b c : Byte} {rest : List Byte} (h : o.body = a :: b :: c :: rest) : o.at 2 = c := by
  simp [Message.at, h]
theorem at_three {a b c d : Byte} {rest : List Byte} (h : o.body = a :: b :: c :: d :: rest) : o.at 3 = d := by
  simp [Message.at, h]

theorem chanAt_of_body {ch : Chan} {rest : List Byte} (h : o.body = byte ch.val :: rest) : o.chanAt = ch := by
  rw [Message.chanAt, at_zero h, ofNat_byte_chan]

theorem chan_chanAt {ch : Chan} {rest : List Byte} (h : o.body = byte ch.val :: rest) (s : State) :
    s.takeOrder.chan[o.chanAt] = s.chan[ch] := by
  simp only [chanAt_of_body h]
  rfl

end bodies

/-! ## Reports -/

theorem statusBytes_takeOrder (s : State) : s.takeOrder.statusBytes = s.statusBytes := rfl

theorem statusBytes_eq (s : State) : s.statusBytes =
    [byte s.mode.code, byte s.hw.sync.code, byte s.link.state.code, byte s.eng.load.state.code, s.ctl.flags,
        if s.ctl.overrun then 1 else 0] ++
      ([(allChannels.filter fun ch => (s.chan[ch]).isSome).length, s.link.errLength, s.link.errFormat,
        s.link.errUnknownTag, s.link.errNotAccepting].flatMap fun n => [byte (n / 256), byte n]) := by
  simp [State.statusBytes, openChannels_eq, flagByte, twoBytes]

theorem faults_toList (c : Context) : c.faults.toList = allKinds.map fun k => c.fault k := by
  apply List.ext_getElem
  · simp [allKinds]
  · intro i h _
    have seven : i < 7 := by simpa using h
    interval_cases i <;> rfl

theorem queryBytes_eq (c : Context) : c.queryBytes =
    [byte c.state.code, byte (c.tag.val / 256), byte c.tag.val, byte c.highway.val, byte c.timeslot.val,
      byte c.profile.val, byte c.phiUp.val, byte c.phiDn.val, byte c.blockLen, byte c.nUp,
      byte (rateCode (some c.upRate)), c.upSeq, if c.adjust.isSome then 1 else 0, byte c.playout.code,
      if c.started then 0 else 1, byte c.queue.length, if c.expected.isSome then 1 else 0, c.expected.getD 0,
      byte c.output.code, byte c.concealIndex, if c.request.isSome then 1 else 0,
      byte ((c.request.map fun q => q.token.val).getD 0)] ++
    allKinds.map (fun k => byte (c.fault k).state.code) ++ c.stats.bytes := by
  rw [Context.queryBytes, faults_toList, List.map_map]
  rfl

/-- Settles O48: each report is taken in every mode, and what it reports is read from the state it leaves. -/
theorem reportsAnswerAndChangeNothing : Obligations.ReportsAnswerAndChangeNothing := by
  intro s o ready
  refine ⟨fun kind body => ?_, fun kind body => ?_, fun n kind body => ?_, fun ch kind body => ?_, fun kind body => ?_⟩
  · change Host.Outcome.next (s.finish.runOrder 0x01 State.orderIdentify) = _
    rw [runOrder_admitted ready (by rw [kind]; rfl) (by rw [body]; rfl) rfl]
    exact congrArg _ (takeOrder_answer s o _ _)
  · change Host.Outcome.next (s.finish.runOrder 0x02 State.orderReadStatus) = _
    rw [runOrder_admitted ready (by rw [kind]; rfl) (by rw [body]; rfl) rfl, State.orderReadStatus, takeOrder_answer,
      statusBytes_takeOrder, statusBytes_eq]
  · have run : exec .getProfile s = .next (s.takeOrder.orderGetProfile o) :=
      congrArg Host.Outcome.next (runOrder_admitted ready (by rw [kind]; rfl) (by rw [body]; rfl) rfl)
    refine ⟨fun beyond => ?_, fun h => ?_⟩
    · rw [run, State.orderGetProfile, dif_neg (by rw [at_zero body]; omega)]
      exact congrArg _ (takeOrder_answer s o _ _)
    · rw [run, State.orderGetProfile]
      simp only [at_zero body, dif_pos h]
      exact congrArg _ (takeOrder_answer s o _ _)
  · have run : exec .query s = .next (s.takeOrder.orderQuery o) :=
      congrArg Host.Outcome.next (runOrder_admitted ready (by rw [kind]; rfl) (by rw [body]; rfl) rfl)
    rw [State.orderQuery, chan_chanAt body] at run
    refine ⟨fun free => ?_, fun c called => ?_⟩
    · rw [run, free]
      exact congrArg _ (takeOrder_answer s o _ _)
    · rw [run, called, ← queryBytes_eq]
      exact congrArg _ (takeOrder_answer s o _ _)
  · change Host.Outcome.next (s.finish.runOrder 0x0D State.orderReadHistory) = _
    rw [runOrder_admitted ready (by rw [kind]; rfl) (by rw [body]; rfl) rfl]
    exact congrArg _ (takeOrder_answer s o _ _)

/-! ## SET MODE -/

theorem modeOfCode_of_gt {n : Nat} (h : 2 < n) : modeOfCode n = none := by
  unfold modeOfCode
  split <;> first | omega | rfl

/-- SET MODE of a coded mode, by the table of R169. -/
theorem orderSetMode_eq {s : State} {o : Message} {m : Byte} {wanted : Mode} (body : o.body = [m])
    (code : modeOfCode m.toNat = some wanted) :
    s.takeOrder.orderSetMode o = match modeAfter s.mode wanted (!s.openChannels.isEmpty) with
      | none => s.answered o .mode []
      | some after => { s with mode := after }.answered o .ok [byte after.code] := by
  rw [State.orderSetMode, at_zero body, code]
  change (match modeAfter s.mode wanted (!s.openChannels.isEmpty) with
    | none => s.takeOrder.refuse o .mode
    | some after => ({ s.takeOrder with mode := after } : State).answer o .ok [byte after.code]) = _
  cases modeAfter s.mode wanted (!s.openChannels.isEmpty) with
  | none => exact takeOrder_answer s o _ _
  | some after => exact takeOrder_answer { s with mode := after } o _ _

theorem someOpen_iff (s : State) : (!s.openChannels.isEmpty) = true ↔ ∃ ch : Chan, s.chan[ch] ≠ none := by
  rw [Bool.not_eq_true', Bool.eq_false_iff, ne_eq, openChannels_isEmpty_iff, not_forall]

/-- Settles O49: the cells of `modeAfter`, with the code of the mode wanted. -/
theorem setModeFollowsTable : Obligations.SetModeFollowsTable := by
  intro s o m ready kind body someOpen accepted refused
  have run : exec .setMode s = .next (s.takeOrder.orderSetMode o) :=
    congrArg Host.Outcome.next (runOrder_admitted ready (by rw [kind]; rfl) (by rw [body]; rfl) rfl)
  have opened : someOpen → (!s.openChannels.isEmpty) = true := (someOpen_iff s).mpr
  have closed : ¬ someOpen → (!s.openChannels.isEmpty) = false := fun h => Bool.eq_false_iff.mpr fun x => h ((someOpen_iff s).mp x)
  have follow : ∀ wanted, modeOfCode m.toNat = some wanted → exec .setMode s = .next
      (match modeAfter s.mode wanted (!s.openChannels.isEmpty) with
      | none => s.answered o .mode []
      | some after => { s with mode := after }.answered o .ok [byte after.code]) := fun wanted code => by
    rw [run, orderSetMode_eq body code]
  refine ⟨fun beyond => ?_, fun one => ?_, fun zero mode => ?_, fun zero mode => ⟨fun h => ?_, fun h => ?_⟩,
    fun zero mode => ?_, fun two mode => ?_, fun two mode => ⟨fun h => ?_, fun h => ?_⟩, fun two mode => ?_⟩
  · show exec .setMode s = _
    rw [run, State.orderSetMode, at_zero body, modeOfCode_of_gt beyond]
    exact congrArg _ (takeOrder_answer s o _ _)
  · show exec .setMode s = _
    rw [follow .service (by rw [one]; rfl)]
    cases s.mode <;> rfl
  · show exec .setMode s = _
    rw [follow .setup (by rw [zero]; rfl), mode]
    rfl
  · show exec .setMode s = _
    rw [follow .setup (by rw [zero]; rfl), mode, opened h]
    rfl
  · show exec .setMode s = _
    rw [follow .setup (by rw [zero]; rfl), mode, closed h]
    rfl
  · show exec .setMode s = _
    rw [follow .setup (by rw [zero]; rfl), mode]
    rfl
  · show exec .setMode s = _
    rw [follow .drain (by rw [two]; rfl), mode]
    rfl
  · show exec .setMode s = _
    rw [follow .drain (by rw [two]; rfl), mode, opened h]
    rfl
  · show exec .setMode s = _
    rw [follow .drain (by rw [two]; rfl), mode, closed h]
    rfl
  · show exec .setMode s = _
    rw [follow .drain (by rw [two]; rfl), mode]
    rfl

end Sys2Proof.Machine
end

section
/-! PROOF. The orders that write the configuration, the gains, the history and the flags, CLOSE and RESTART (R8, R9, R20,
R29, R162, R168, R173, R179): O50, O52, O55, O57 and O58. -/

namespace Sys2Proof.Machine

/-! ## SET HIGHWAY -/

theorem enableOfCode_eq (n : Nat) : enableOfCode n = if n ≤ 1 then some (decide (n = 0)) else none := by
  match n with
  | 0 => rfl
  | 1 => rfl
  | n + 2 => rw [if_neg (by omega)]; rfl

theorem lawOfCode_eq (n : Nat) : lawOfCode n = if n ≤ 1 then some (if n = 0 then .aLaw else .muLaw) else none := by
  match n with
  | 0 => rfl
  | 1 => rfl
  | n + 2 => rw [if_neg (by omega)]; rfl

/-- The values of R29 with a SET HIGHWAY's list. -/
def HighwayValuesOk (h en law : Byte) (list : List Byte) : Prop :=
  h.toNat < 8 ∧ en.toNat ≤ 1 ∧ law.toNat ≤ 1 ∧ list.length ≤ 32 ∧ ∀ b ∈ list, b.toNat ≤ 31

/-- The record a SET HIGHWAY with values in range writes (R29). -/
def highwayRecordOf (en law : Byte) (list : List Byte) : HighwayRecord :=
  ⟨decide (en.toNat = 0), if law.toNat = 0 then .aLaw else .muLaw, reservedSet list⟩

theorem list_ok_iff (list : List Byte) :
    (list.length ≤ 32 && list.all fun b => b.toNat < 32) = true ↔ list.length ≤ 32 ∧ ∀ b ∈ list, b.toNat ≤ 31 := by
  simp only [Bool.and_eq_true, decide_eq_true_eq, List.all_eq_true]
  exact and_congr_right fun _ => forall₂_congr fun _ _ => Nat.lt_succ_iff

theorem orderSetHighway_of_bad {s : State} {o : Message} {h en law : Byte} {list : List Byte}
    (body : o.body = h :: en :: law :: list) (bad : ¬ HighwayValuesOk h en law list) :
    s.takeOrder.orderSetHighway o = s.answered o .range [] := by
  have refused : s.takeOrder.refuse o .range = s.answered o .range [] := takeOrder_answer s o _ _
  rw [State.orderSetHighway, ← refused]
  dsimp only
  simp only [at_zero body, at_one body, at_two body]
  split
  · next eight =>
    split
    · next en' law' hen hlaw =>
      rw [enableOfCode_eq] at hen
      rw [lawOfCode_eq] at hlaw
      obtain ⟨lowEn, _⟩ := Option.ite_none_right_eq_some.mp hen
      obtain ⟨lowLaw, _⟩ := Option.ite_none_right_eq_some.mp hlaw
      refine if_neg fun ok => bad ?_
      rw [body] at ok
      exact ⟨eight, lowEn, lowLaw, (list_ok_iff list).mp ok⟩
    · rfl
  · rfl

theorem orderSetHighway_of_ok {s : State} {o : Message} {h en law : Byte} {list : List Byte}
    (body : o.body = h :: en :: law :: list) (ok : HighwayValuesOk h en law list) (hh : h.toNat < 8) :
    s.takeOrder.orderSetHighway o = ({ s with hw := { s.hw with records := s.hw.records.set h.toNat (highwayRecordOf en law list) } } : State).answered o .ok [] := by
  obtain ⟨_, lowEn, lowLaw, listOk⟩ := ok
  have good := (list_ok_iff list).mpr listOk
  rw [State.orderSetHighway]
  dsimp only
  simp only [at_zero body, at_one body, at_two body, dif_pos hh, enableOfCode_eq, lawOfCode_eq, if_pos lowEn, if_pos lowLaw]
  rw [if_pos (by rw [body]; exact good), body]
  exact takeOrder_answer { s with hw := { s.hw with
    records := s.hw.records.set h.toNat (highwayRecordOf en law list) } } o _ _

theorem toNat_eq_zero_iff (b : Byte) : b.toNat = 0 ↔ b = 0 := by
  rw [← BitVec.toNat_inj]
  rfl

/-- Settles O50: the values of R29 hold or not, and the record is built from them. -/
theorem setHighwayReplacesRecord : Obligations.SetHighwayReplacesRecord := by
  intro s o h en law list ready kind body
  have long : bodyLengthOk 0x04 o.body.length = true := by
    rw [body]
    simp [bodyLengthOk]
  refine ⟨fun mode => ?_, fun mode => ?_⟩
  · change Host.Outcome.next (s.finish.runOrder 0x04 State.orderSetHighway) = _
    rw [runOrder_of_ready 0x04 _ ready (by rw [kind]; rfl), long]
    cases hm : s.mode with
    | setup => exact absurd hm mode
    | service => rfl
    | drain => rfl
  · have run : exec .setHighway s = .next (s.takeOrder.orderSetHighway o) :=
      congrArg Host.Outcome.next (runOrder_admitted ready (by rw [kind]; rfl) long (by rw [mode]; rfl))
    refine ⟨fun bad => ?_, fun hh lowEn lowLaw short low => ?_⟩
    · rw [run, orderSetHighway_of_bad body fun ⟨a, b, c, d, e⟩ => ?_]
      rcases bad with w | w | w | w | ⟨x, hx, w⟩
      · omega
      · omega
      · omega
      · omega
      · exact absurd (e x hx) (by omega)
    · refine ⟨highwayRecordOf en law list, ?_, ?_, fun n => ?_, by rw [run, orderSetHighway_of_ok body ⟨hh, lowEn, lowLaw, short, low⟩ hh]⟩
      · exact decide_eq_decide.mpr (toNat_eq_zero_iff en)
      · exact if_congr (toNat_eq_zero_iff law) rfl rfl
      · rw [Bool.eq_iff_iff]
        simp [highwayRecordOf, reservedSet]

/-! ## SET DEVICE and SET LINE -/

theorem styleOfCode_of_gt {v : Nat} (h : 2 < v) : styleOfCode v = none := by
  unfold styleOfCode
  split <;> first | omega | rfl

/-- SET DEVICE after its setting's number and mode have passed. -/
theorem orderSetDevice_eq {s : State} {o : Message} {n hi lo : Byte} (body : o.body = [n, hi, lo]) (known : n.toNat ≤ 8)
    (mode : n.toNat = 0 → s.mode = .setup) :
    s.takeOrder.orderSetDevice o = match s.settings.write n.toNat (256 * hi.toNat + lo.toNat) with
      | none => s.answered o .range []
      | some d => ({ s with settings := d } : State).answered o .ok [] := by
  have admitted : ¬ ((decide (n.toNat = 0) && decide (s.takeOrder.mode ≠ .setup)) = true) := by
    simp only [Bool.and_eq_true, decide_eq_true_eq, not_and, not_not]
    exact mode
  rw [State.orderSetDevice, at_zero body, at_one body, at_two body, if_neg (by omega), if_neg admitted]
  change (match s.settings.write n.toNat (256 * hi.toNat + lo.toNat) with
    | none => s.takeOrder.refuse o .range
    | some d => ({ s.takeOrder with settings := d } : State).answer o .ok []) = _
  cases s.settings.write n.toNat (256 * hi.toNat + lo.toNat) with
  | none => exact takeOrder_answer s o _ _
  | some d => exact takeOrder_answer { s with settings := d } o _ _

theorem write_level (d : DeviceSettings) (k : Fin 7) (v : Nat) :
    d.write (k.val + 2) v = if v ≤ 3 then some { d with levels := d.levels.set k v } else none := by
  unfold DeviceSettings.write
  split
  · next h => omega
  · next h => omega
  · have place : Fin.ofNat 7 (k.val + 2 - 2) = k := by
      apply Fin.ext
      simp
    have below : k.val + 2 < 9 := by omega
    simp only [place, below, decide_true, Bool.and_true, decide_eq_true_eq]

theorem write_loadLimit (d : DeviceSettings) (v : Nat) :
    d.write 1 v = if 1 ≤ v && v ≤ 1000 then some { d with loadLimit := v } else none := rfl

theorem write_historyStyle (d : DeviceSettings) (v : Nat) :
    d.write 0 v = (styleOfCode v).map fun st => { d with historyStyle := st } := rfl

theorem speedOfCode_of_gt {n : Nat} (h : 4 < n) : speedOfCode n = none := by
  unfold speedOfCode
  split <;> first | omega | rfl

theorem parityOfCode_of_gt {n : Nat} (h : 2 < n) : parityOfCode n = none := by
  unfold parityOfCode
  split <;> first | omega | rfl

/-- Settles O52: the number and the mode of a setting first, then its range by `DeviceSettings.write`. -/
theorem setDeviceAndSetLine : Obligations.SetDeviceAndSetLine := by
  intro s o ready
  constructor
  · intro n hi lo kind body v written refused
    have run : exec .setDevice s = .next (s.takeOrder.orderSetDevice o) :=
      congrArg Host.Outcome.next (runOrder_admitted ready (by rw [kind]; rfl) (by rw [body]; rfl) rfl)
    have writes : ∀ d, n.toNat ≤ 8 → (n.toNat = 0 → s.mode = .setup) → s.settings.write n.toNat v = some d → written d :=
      fun d known mode w => by
        show exec .setDevice s = _
        rw [run, orderSetDevice_eq body known mode, w]
    have refuses : n.toNat ≤ 8 → (n.toNat = 0 → s.mode = .setup) → s.settings.write n.toNat v = none → refused .range :=
      fun known mode w => by
        show exec .setDevice s = _
        rw [run, orderSetDevice_eq body known mode, w]
    refine ⟨fun beyond => ?_, fun zero mode => ?_, fun zero mode => ?_, fun one => ?_, fun k hk => ?_⟩
    · show exec .setDevice s = _
      rw [run, State.orderSetDevice, at_zero body, if_pos beyond]
      exact congrArg _ (takeOrder_answer s o _ _)
    · show exec .setDevice s = _
      have first : n.toNat = 0 := (toNat_eq_zero_iff n).mpr zero
      have refusedHere : (decide (n.toNat = 0) && decide (s.takeOrder.mode ≠ .setup)) = true := by
        rw [Bool.and_eq_true, decide_eq_true_eq, decide_eq_true_eq]
        exact ⟨first, mode⟩
      rw [run, State.orderSetDevice, at_zero body, if_neg (by omega), if_pos refusedHere]
      exact congrArg _ (takeOrder_answer s o _ _)
    · have first : n.toNat = 0 := (toNat_eq_zero_iff n).mpr zero
      have style : ∀ st, styleOfCode v = some st → written { s.settings with historyStyle := st } := fun st h =>
        writes _ (by omega) (fun _ => mode) (by rw [first, write_historyStyle, h]; rfl)
      exact ⟨fun h => style _ (by rw [h]; rfl), fun h => style _ (by rw [h]; rfl), fun h => style _ (by rw [h]; rfl),
        fun h => refuses (by omega) (fun _ => mode) (by rw [first, write_historyStyle, styleOfCode_of_gt h]; rfl)⟩
    · have second : n.toNat = 1 := by rw [one]; rfl
      have known : n.toNat ≤ 8 := by omega
      have any : n.toNat = 0 → s.mode = .setup := fun zero => by omega
      refine ⟨fun low high => writes _ known any ?_, fun h => refuses known any ?_⟩
      · rw [second, write_loadLimit, if_pos (by simp [low, high])]
      · rw [second, write_loadLimit, if_neg (by simp only [Bool.and_eq_true, decide_eq_true_eq]; omega)]
    · have known : n.toNat ≤ 8 := by omega
      have any : n.toNat = 0 → s.mode = .setup := fun zero => by omega
      refine ⟨fun low => writes _ known any ?_, fun h => refuses known any ?_⟩
      · rw [hk, write_level, if_pos low]
      · rw [hk, write_level, if_neg (by omega)]
  · intro sp pa kind body
    have run : exec .setLine s = .next (s.takeOrder.orderSetLine o) :=
      congrArg Host.Outcome.next (runOrder_admitted ready (by rw [kind]; rfl) (by rw [body]; rfl) rfl)
    rw [State.orderSetLine, at_zero body, at_one body] at run
    refine ⟨fun bad => ?_, fun line speed parity => ?_⟩
    · rw [run, ← takeOrder_answer s o .range []]
      rcases bad with high | high
      · rw [speedOfCode_of_gt high]
        rfl
      · rw [parityOfCode_of_gt high]
        cases speedOfCode sp.toNat <;> rfl
    · rw [run, speed, parity]
      exact congrArg _ (takeOrder_answer { s with ctl := { s.ctl with newLine := some line } } o _ _)

/-! ## MODIFY and CLOSE -/

/-- Settles O55. -/
theorem modifyAndClose : Obligations.ModifyAndClose := by
  intro s o ch ready
  refine ⟨fun up dn kind body => ⟨fun mode => ?_, fun mode => ?_⟩, fun kind body => ⟨fun mode => ?_, fun mode => ?_⟩⟩
  · change Host.Outcome.next (s.finish.runOrder 0x09 State.orderModify) = _
    rw [runOrder_of_ready 0x09 _ ready (by rw [kind]; rfl), body, mode]
    rfl
  · have run : exec .modify s = .next (s.takeOrder.orderModify o) :=
      congrArg Host.Outcome.next (runOrder_admitted ready (by rw [kind]; rfl) (by rw [body]; rfl)
        (by cases hm : s.mode <;> first | exact absurd hm mode | rfl))
    rw [State.orderModify, chan_chanAt body, at_one body, at_two body, chanAt_of_body body] at run
    refine ⟨fun free => ?_, fun c called => ⟨fun bad => ?_, fun lowUp highUp lowDn highDn => ?_⟩⟩
    · rw [run, free]
      exact congrArg _ (takeOrder_answer s o _ _)
    · rw [run, called]
      dsimp only
      rw [if_neg (by simp), if_neg (by simp only [Bool.and_eq_true, decide_eq_true_eq]; omega)]
      exact congrArg _ (takeOrder_answer s o _ _)
    · rw [run, called]
      dsimp only
      rw [if_neg (by simp), if_pos (by simp only [Bool.and_eq_true, decide_eq_true_eq]; omega),
        modCtx_of_some ch _ s.takeOrder called]
      exact congrArg _ (takeOrder_answer { s with
        chan := s.chan.set ch (some { c with gainUp := up.toInt, gainDn := dn.toInt }) } o _ _)
  · change Host.Outcome.next (s.finish.runOrder 0x0A State.orderClose) = _
    rw [runOrder_of_ready 0x0A _ ready (by rw [kind]; rfl), body, mode]
    rfl
  · have run : exec .close s = .next (s.takeOrder.orderClose o) :=
      congrArg Host.Outcome.next (runOrder_admitted ready (by rw [kind]; rfl) (by rw [body]; rfl)
        (by cases hm : s.mode <;> first | exact absurd hm mode | rfl))
    rw [State.orderClose, chan_chanAt body, chanAt_of_body body] at run
    refine ⟨fun free => ?_, fun c called => ?_⟩
    · rw [run, free]
      exact congrArg _ (takeOrder_answer s o _ _)
    · rw [run, called]
      dsimp only
      rw [if_neg (by simp), modCtx_of_some ch _ s.takeOrder called]
      rfl

/-! ## CLEAR HISTORY and ACK NOTICES -/

/-- Settles O57. -/
theorem clearHistoryAndAckNotices : Obligations.ClearHistoryAndAckNotices := by
  intro s o ready
  refine ⟨fun kind body => ?_, fun mask kind body => ?_⟩
  · change Host.Outcome.next (s.finish.runOrder 0x0E State.orderClearHistory) = _
    rw [runOrder_admitted ready (by rw [kind]; rfl) (by rw [body]; rfl) rfl]
    exact congrArg _ (takeOrder_answer { s with history := [] } o _ _)
  · have run : exec .ackNotices s = .next (s.takeOrder.orderAckNotices o) :=
      congrArg Host.Outcome.next (runOrder_admitted ready (by rw [kind]; rfl) (by rw [body]; rfl) rfl)
    rw [State.orderAckNotices] at run
    simp only [at_zero body] at run
    refine ⟨fun top => ?_, fun top => ?_⟩
    · rw [run, if_pos top]
      exact congrArg _ (takeOrder_answer s o _ _)
    · have acked : exec .ackNotices s = .next (({ s with ctl := { s.ctl with
          flags := s.ctl.flags &&& ~~~mask, overrun := s.ctl.overrun && !mask.getLsbD 6 } } : State).answered o .ok []) := by
        rw [run, if_neg (by rw [top]; decide)]
        exact congrArg _ (takeOrder_answer { s with ctl := { s.ctl with
          flags := s.ctl.flags &&& ~~~mask, overrun := s.ctl.overrun && !mask.getLsbD 6 } } o _ _)
      refine ⟨_, acked, fun i hi => ?_, rfl, rfl⟩
      change (s.ctl.flags &&& ~~~mask).getLsbD i = _
      simp only [BitVec.getLsbD_and, BitVec.getLsbD_not, hi, decide_true, Bool.true_and]

/-! ## RESTART -/

/-- Settles O58: RESTART's work and the answer after it, field by field. -/
theorem restartKeepsConfiguration : Obligations.RestartKeepsConfiguration := by
  intro s o ready kind body
  have run : exec .restart s = .next (s.takeOrder.restarted.answer o .ok []) :=
    congrArg Host.Outcome.next (runOrder_admitted ready (by rw [kind]; rfl) (by rw [body]; rfl) rfl)
  have emptied : ∀ {α : Type} {n : Nat} (x : α) (i : Fin n), (Vector.replicate n x)[i] = x := fun x i => by simp
  have answered : answerTo o .ok [] = ⟨0x90, o.tag, [0]⟩ := by
    rw [answerTo, kind]
    rfl
  refine ⟨_, run, fun ch => ⟨emptied _ ch, emptied _ ch⟩, fun g => emptied _ g, fun n => emptied _ n, rfl, rfl,
    fun e => emptied _ e, fun b => emptied _ b, rfl, rfl, rfl, rfl, rfl, fun ch => emptied _ ch, rfl, rfl, rfl, rfl, ?_, rfl,
    rfl, rfl, rfl, ?_, rfl, rfl, rfl, rfl⟩
  · show s.link.abandon.lastDelimiter = _
    rw [abandon_eq]
  · rw [answer_ctl, answered]
    rfl

end Sys2Proof.Machine
end

section
/-! PROOF. SET PROFILE (R163, R165, R166): a profile as the list of its 39 values, what a write does to that list and to its
bytes, and O51. -/

namespace Sys2Proof.Machine

/-! ## The values of a profile -/

/-- The 39 values in the order of R163, of which GET PROFILE's bytes are made. -/
def Profile.values (p : Profile) : List Int :=
  [(p.rateSet.mask : Int), rateCode (some p.initialRate), p.gainUp, p.gainDn, p.startDepth, p.marginLo, p.marginHi,
    p.dtx.toNat, p.vadLevel, p.hangover, p.concealLimit, p.outDn.code, p.outUp.code, p.starveCycles, p.lateLimit,
    p.overloadLimit, p.driftLimit, p.missLimit]
  ++ p.cls.toList.map (fun c => (c.code : Int)) ++ p.retryTime.toList.map Int.ofNat ++ p.retryLimit.toList.map Int.ofNat

theorem bytes_eq_values (p : Profile) : p.bytes = p.values.flatMap signedBytes ++ [flagByte p.defaulted] := rfl

theorem length_values (p : Profile) : p.values.length = 39 := by simp [Profile.values]

theorem length_flatMap_signedBytes (l : List Int) : (l.flatMap signedBytes).length = 2 * l.length := by
  induction l with
  | nil => rfl
  | cons x l ih =>
    rw [List.flatMap_cons, List.length_append, ih, List.length_cons, show (signedBytes x).length = 2 from rfl]
    omega

/-- One value written is its two bytes written. -/
theorem flatMap_signedBytes_set {v : Int} {hi lo : Byte} (two : signedBytes v = [hi, lo]) (l : List Int) (i : Nat) :
    (l.set i v).flatMap signedBytes = ((l.flatMap signedBytes).set (2 * i) hi).set (2 * i + 1) lo := by
  induction l generalizing i with
  | nil => rfl
  | cons x l ih =>
    obtain ⟨a, b, hx⟩ : ∃ a b, signedBytes x = [a, b] := ⟨_, _, rfl⟩
    cases i with
    | zero => simp [two, hx]
    | succ i => simp [hx, ih, Nat.mul_add]

theorem signedBytes_ofTwoSigned (hi lo : Byte) : signedBytes (ofTwoSigned hi lo) = [hi, lo] := by
  have low := lo.isLt
  have wide : ofTwo hi lo < 65536 := by
    have := hi.isLt
    unfold ofTwo
    omega
  have number : (BitVec.ofInt 16 (ofTwoSigned hi lo)).toNat = ofTwo hi lo := by
    rw [ofTwoSigned, BitVec.ofInt_toInt, BitVec.toNat_ofNat]
    exact Nat.mod_eq_of_lt wide
  have high : ofTwo hi lo / 256 = hi.toNat := by
    unfold ofTwo
    omega
  have rest : ofTwo hi lo % 256 = lo.toNat := by
    unfold ofTwo
    omega
  rw [signedBytes, number, twoBytes, high]
  congr 1
  · exact BitVec.eq_of_toNat_eq (by rw [byte, BitVec.toNat_ofNat]; exact Nat.mod_eq_of_lt hi.isLt)
  · congr 1
    exact BitVec.eq_of_toNat_eq (by rw [byte, BitVec.toNat_ofNat]; exact rest)

/-! ## Writing one field -/

theorem inRange_of_mem {lo hi : Nat} {v : Int} (low : (lo : Int) ≤ v) (high : v ≤ hi) :
    ∃ n, inRange lo hi v = some n ∧ (n : Int) = v ∧ lo ≤ n ∧ n ≤ hi := by
  refine ⟨v.toNat, if_pos (by simp [low, high]), ?_⟩
  omega

theorem inRange_of_not_mem {lo hi : Nat} {v : Int} (out : v < lo ∨ hi < v) : inRange lo hi v = none :=
  if_neg (by simp only [Bool.and_eq_true, decide_eq_true_eq]; omega)

/-- A field beyond the single ones is the class, the retry time or the retry limit of a kind. -/
theorem write_kind (p : Profile) (n : Nat) (v : Int) : p.write (n + 18) v =
    if n + 18 < 25 then
      (inRange 0 3 v).bind fun c => (classOfCode c).map fun x =>
        { p with cls := p.cls.set (kindAt (n + 18 - 18)).index x }
    else if n + 18 < 32 then
      (inRange 1 250 v).map fun t => { p with retryTime := p.retryTime.set (kindAt (n + 18 - 25)).index t }
    else if n + 18 < 39 then
      (inRange 0 15 v).map fun l => { p with retryLimit := p.retryLimit.set (kindAt (n + 18 - 32)).index l }
    else none := rfl

theorem fieldRange_kind (n : Nat) : fieldRange (n + 18) =
    if n + 18 < 25 then (0, 3) else if n + 18 < 32 then (1, 250) else (0, 15) := rfl

theorem kindAt_index {n : Nat} (h : n < 7) : (kindAt n).index.val = n := by
  interval_cases n <;> rfl

/-! ### The codes of coded fields -/

theorem exists_rate {n : Nat} (low : 1 ≤ n) (high : n ≤ 3) : ∃ r, rateOfCode n = some r ∧ rateCode (some r) = n := by
  interval_cases n <;> exact ⟨_, rfl, rfl⟩

theorem exists_class {n : Nat} (high : n ≤ 3) : ∃ x, classOfCode n = some x ∧ x.code = n := by
  interval_cases n <;> exact ⟨_, rfl, rfl⟩

theorem exists_outDn {n : Nat} (high : n ≤ 2) : ∃ x, outDnOfCode n = some x ∧ x.code = n := by
  interval_cases n <;> exact ⟨_, rfl, rfl⟩

theorem exists_outUp {n : Nat} (high : n ≤ 2) : ∃ x, outUpOfCode n = some x ∧ x.code = n := by
  interval_cases n <;> exact ⟨_, rfl, rfl⟩

theorem mask_of_bits {n : Nat} (high : n ≤ 7) : RateSet.mask ⟨n.testBit 0, n.testBit 1, n.testBit 2⟩ = n := by
  interval_cases n <;> rfl

theorem toNat_decide_eq_one {n : Nat} (high : n ≤ 1) : (decide (n = 1)).toNat = n := by
  interval_cases n <;> rfl

/-! ### Ranges -/

/-- A value outside its field's range is refused. -/
theorem write_of_out (p : Profile) {f : Nat} {v : Int} (out : v < (fieldRange f).1 ∨ (fieldRange f).2 < v) :
    p.write f v = none := by
  have none_of {lo hi : Nat} (h : v < lo ∨ hi < v) : inRange lo hi v = none := inRange_of_not_mem h
  by_cases single : f < 18
  · match f, single, out with
    | 2, _, out | 3, _, out =>
      exact if_neg (by simp only [Bool.and_eq_true, decide_eq_true_eq]; change v < -12 ∨ 12 < v at out; omega)
    | 0, _, out | 1, _, out | 4, _, out | 5, _, out | 6, _, out | 7, _, out | 8, _, out | 9, _, out | 10, _, out
    | 11, _, out | 12, _, out | 13, _, out | 14, _, out | 15, _, out | 16, _, out | 17, _, out =>
      rw [Profile.write, none_of out]
      rfl
    | n + 18, single, _ => exact absurd single (by omega)
  · obtain ⟨n, rfl⟩ : ∃ n, f = n + 18 := ⟨f - 18, by omega⟩
    rw [fieldRange_kind] at out
    rw [write_kind]
    split
    · next h =>
      rw [if_pos h] at out
      rw [none_of out]
      rfl
    · next h =>
      rw [if_neg h] at out
      split
      · next h2 =>
        rw [if_pos h2] at out
        rw [none_of out]
        rfl
      · next h2 =>
        rw [if_neg h2] at out
        rw [none_of out]
        exact ite_self _

/-- A field number above 38 names no field. -/
theorem write_of_unknown (p : Profile) {f : Nat} (v : Int) (unknown : 39 ≤ f) : p.write f v = none := by
  obtain ⟨n, rfl⟩ : ∃ n, f = n + 18 := ⟨f - 18, by omega⟩
  rw [write_kind, if_neg (by omega), if_neg (by omega), if_neg (by omega)]

/-- A number of a single field in its range replaces its value. -/
theorem write_single (p : Profile) {f : Nat} {v : Int} (single : f < 18) (low : (fieldRange f).1 ≤ v)
    (high : v ≤ (fieldRange f).2) : ∃ q, p.write f v = some q ∧ q.values = p.values.set f v := by
  match f, single, low, high with
  | 0, _, low, high =>
    obtain ⟨n, hn, rfl, _, seven⟩ := inRange_of_mem (lo := 1) (hi := 7) low high
    refine ⟨{ p with rateSet := ⟨n.testBit 0, n.testBit 1, n.testBit 2⟩ }, by simp only [Profile.write, hn, Option.map_some], ?_⟩
    exact congrArg (fun m : Nat => p.values.set 0 m) (mask_of_bits seven)
  | 1, _, low, high =>
    obtain ⟨n, hn, rfl, one, three⟩ := inRange_of_mem (lo := 1) (hi := 3) low high
    obtain ⟨r, hr, code⟩ := exists_rate one three
    refine ⟨{ p with initialRate := r }, by simp only [Profile.write, hn, Option.bind_some, hr, Option.map_some], ?_⟩
    exact congrArg (fun m : Nat => p.values.set 1 m) code
  | 2, _, low, high =>
    exact ⟨{ p with gainUp := v }, if_pos (by simp only [Bool.and_eq_true, decide_eq_true_eq]; exact ⟨low, high⟩), rfl⟩
  | 3, _, low, high =>
    exact ⟨{ p with gainDn := v }, if_pos (by simp only [Bool.and_eq_true, decide_eq_true_eq]; exact ⟨low, high⟩), rfl⟩
  | 7, _, low, high =>
    obtain ⟨n, hn, rfl, _, one⟩ := inRange_of_mem (lo := 0) (hi := 1) low high
    refine ⟨{ p with dtx := n = 1 }, by simp only [Profile.write, hn, Option.map_some], ?_⟩
    exact congrArg (fun m : Nat => p.values.set 7 m) (toNat_decide_eq_one one)
  | 11, _, low, high =>
    obtain ⟨n, hn, rfl, _, two⟩ := inRange_of_mem (lo := 0) (hi := 2) low high
    obtain ⟨x, hx, code⟩ := exists_outDn two
    refine ⟨{ p with outDn := x }, by simp only [Profile.write, hn, Option.bind_some, hx, Option.map_some], ?_⟩
    exact congrArg (fun m : Nat => p.values.set 11 m) code
  | 12, _, low, high =>
    obtain ⟨n, hn, rfl, _, two⟩ := inRange_of_mem (lo := 0) (hi := 2) low high
    obtain ⟨x, hx, code⟩ := exists_outUp two
    refine ⟨{ p with outUp := x }, by simp only [Profile.write, hn, Option.bind_some, hx, Option.map_some], ?_⟩
    exact congrArg (fun m : Nat => p.values.set 12 m) code
  | 4, _, low, high | 5, _, low, high | 6, _, low, high | 8, _, low, high | 9, _, low, high | 10, _, low, high
  | 13, _, low, high | 14, _, low, high | 15, _, low, high | 16, _, low, high | 17, _, low, high =>
    obtain ⟨n, hn, rfl, -, -⟩ := inRange_of_mem (low : ((_ : Nat) : Int) ≤ v) (high : v ≤ ((_ : Nat) : Int))
    exact ⟨_, congrArg (Option.map _) hn, rfl⟩
  | n + 18, single, _, _ => exact absurd single (by omega)

/-! ### The values of the kinds -/

/-- The values of the single fields. -/
def Profile.singles (p : Profile) : List Int := p.values.take 18

theorem length_singles (p : Profile) : p.singles.length = 18 := rfl

theorem values_eq (p : Profile) : p.values = p.singles ++ (p.cls.toList.map (fun c => (c.code : Int)) ++
    (p.retryTime.toList.map Int.ofNat ++ p.retryLimit.toList.map Int.ofNat)) := by
  change ((_ ++ _) ++ _) ++ _ = _
  rw [List.append_assoc, List.append_assoc]
  rfl

/-- One entry of a table of the kinds replaced is its value replaced. -/
theorem map_toList_set {α : Type} (g : α → Int) (v : Vector α 7) {n : Nat} (h : n < 7) (x : α) :
    (v.set (kindAt n).index x).toList.map g = (v.toList.map g).set n (g x) := by
  rw [Vector.toList_set, List.map_set, kindAt_index h]

theorem values_setClass (p : Profile) {i : Nat} (h : i < 7) (x : FaultClass) :
    ({ p with cls := p.cls.set (kindAt i).index x } : Profile).values = p.values.set (i + 18) x.code := by
  rw [values_eq, values_eq p, List.set_append_right _ _ (by rw [length_singles]; omega),
    List.set_append_left _ _ (by simp [length_singles, h])]
  dsimp only
  rw [map_toList_set _ _ h]
  rfl

theorem values_setRetryTime (p : Profile) {i : Nat} (h : i < 7) (x : Nat) :
    ({ p with retryTime := p.retryTime.set (kindAt i).index x } : Profile).values = p.values.set (i + 25) x := by
  rw [values_eq, values_eq p, List.set_append_right _ _ (by rw [length_singles]; omega),
    List.set_append_right _ _ (by simp [length_singles]), List.set_append_left _ _ (by simp [length_singles]; omega)]
  dsimp only
  rw [map_toList_set _ _ h]
  simp only [length_singles, List.length_map, Vector.length_toList]
  rw [show i + 25 - 18 - 7 = i by omega]
  rfl

theorem values_setRetryLimit (p : Profile) {i : Nat} (h : i < 7) (x : Nat) :
    ({ p with retryLimit := p.retryLimit.set (kindAt i).index x } : Profile).values = p.values.set (i + 32) x := by
  rw [values_eq, values_eq p, List.set_append_right _ _ (by rw [length_singles]; omega),
    List.set_append_right _ _ (by simp [length_singles]), List.set_append_right _ _ (by simp [length_singles])]
  dsimp only
  rw [map_toList_set _ _ h]
  simp only [length_singles, List.length_map, Vector.length_toList]
  rw [show i + 32 - 18 - 7 - 7 = i by omega]
  rfl

/-- A number of a field of a kind in its range replaces its value. -/
theorem write_ofKind (p : Profile) {n : Nat} {v : Int} (known : n + 18 < 39) (low : (fieldRange (n + 18)).1 ≤ v)
    (high : v ≤ (fieldRange (n + 18)).2) : ∃ q, p.write (n + 18) v = some q ∧ q.values = p.values.set (n + 18) v := by
  rw [fieldRange_kind] at low high
  rw [write_kind]
  by_cases cls : n + 18 < 25
  · rw [if_pos cls] at low high
    obtain ⟨m, hm, rfl, _, three⟩ := inRange_of_mem (lo := 0) (hi := 3) low high
    obtain ⟨x, hx, code⟩ := exists_class three
    refine ⟨_, by rw [if_pos cls, hm, Option.bind_some, hx, Option.map_some], ?_⟩
    rw [values_setClass p (by omega), code]
    rfl
  · rw [if_neg cls] at low high
    by_cases time : n + 18 < 32
    · rw [if_pos time] at low high
      obtain ⟨m, hm, rfl, _, _⟩ := inRange_of_mem (lo := 1) (hi := 250) low high
      refine ⟨_, by rw [if_neg cls, if_pos time, hm, Option.map_some], ?_⟩
      rw [values_setRetryTime p (by omega), show n + 18 - 25 + 25 = n + 18 by omega]
    · rw [if_neg time] at low high
      obtain ⟨m, hm, rfl, _, _⟩ := inRange_of_mem (lo := 0) (hi := 15) low high
      refine ⟨_, by rw [if_neg cls, if_neg time, if_pos known, hm, Option.map_some], ?_⟩
      rw [values_setRetryLimit p (by omega), show n + 18 - 32 + 32 = n + 18 by omega]

/-- A number in its field's range replaces that field's value. -/
theorem write_of_mem (p : Profile) {f : Nat} {v : Int} (known : f < 39) (low : (fieldRange f).1 ≤ v)
    (high : v ≤ (fieldRange f).2) : ∃ q, p.write f v = some q ∧ q.values = p.values.set f v := by
  by_cases single : f < 18
  · exact write_single p single low high
  · obtain ⟨n, rfl⟩ : ∃ n, f = n + 18 := ⟨f - 18, by omega⟩
    exact write_ofKind p known low high

/-- The bytes of a profile with one value replaced and the marker clear. -/
theorem bytes_of_values_set {p q : Profile} {f : Nat} {hi lo : Byte} (known : f < 39)
    (values : q.values = p.values.set f (ofTwoSigned hi lo)) :
    ({ q with defaulted := false } : Profile).bytes = ((p.bytes.set (2 * f) hi).set (2 * f + 1) lo).set 78 0 := by
  have length : (p.values.flatMap signedBytes).length = 78 := by
    rw [length_flatMap_signedBytes, length_values]
  have written : (p.bytes.set (2 * f) hi).set (2 * f + 1) lo
      = q.values.flatMap signedBytes ++ [flagByte p.defaulted] := by
    rw [values, flatMap_signedBytes_set (signedBytes_ofTwoSigned hi lo), bytes_eq_values,
      List.set_append_left _ _ (by omega), List.set_append_left _ _ (by rw [List.length_set]; omega)]
  have unchanged : (q.values.flatMap signedBytes).length = 78 := by
    rw [length_flatMap_signedBytes, length_values]
  rw [written, List.set_append_right _ _ (by omega), unchanged]
  rfl

/-! ## The order -/

/-- SET PROFILE of a profile that may be written. -/
theorem orderSetProfile_eq {s : State} {o : Message} {n f hi lo : Byte} (body : o.body = [n, f, hi, lo])
    (hn : n.toNat < 16) (writable : n.toNat ≠ 0) :
    s.takeOrder.orderSetProfile o = match (s.profiles[n.toNat]).write f.toNat (ofTwoSigned hi lo) with
      | none => s.answered o .range []
      | some p => ({ s with profiles := s.profiles.set n.toNat { p with defaulted := false } } : State).answered o .ok [] := by
  rw [State.orderSetProfile]
  simp only [at_zero body, at_one body, at_two body, at_three body, dif_pos hn, if_neg writable]
  change (match (s.profiles[n.toNat]).write f.toNat (ofTwoSigned hi lo) with
    | none => s.takeOrder.refuse o .range
    | some p => ({ s.takeOrder with profiles := s.profiles.set n.toNat { p with defaulted := false } } : State).answer o
        .ok []) = _
  cases (s.profiles[n.toNat]).write f.toNat (ofTwoSigned hi lo) with
  | none => exact takeOrder_answer s o _ _
  | some p => exact takeOrder_answer { s with profiles := s.profiles.set n.toNat { p with defaulted := false } } o _ _

/-- Settles O51: the profile's number, P0, and then the field and its range by `Profile.write`. -/
theorem setProfileWritesOneField : Obligations.SetProfileWritesOneField := by
  intro s o n f hi lo ready kind body v range
  have run : exec .setProfile s = .next (s.takeOrder.orderSetProfile o) :=
    congrArg Host.Outcome.next (runOrder_admitted ready (by rw [kind]; rfl) (by rw [body]; rfl) rfl)
  refine ⟨fun beyond => ?_, fun zero => ?_, fun hn nonzero => ?_⟩
  · rw [run, State.orderSetProfile]
    simp only [at_zero body, dif_neg (not_lt.mpr beyond)]
    exact congrArg _ (takeOrder_answer s o _ _)
  · have first : n.toNat = 0 := (toNat_eq_zero_iff n).mpr zero
    have below : n.toNat < 16 := by omega
    rw [run, State.orderSetProfile]
    simp only [at_zero body, dif_pos below, if_pos first]
    exact congrArg _ (takeOrder_answer s o _ _)
  · have writable : n.toNat ≠ 0 := fun zero => nonzero ((toNat_eq_zero_iff n).mp zero)
    rw [run, orderSetProfile_eq body hn writable]
    refine ⟨fun bad => ?_, fun known low high => ?_⟩
    · have refused : (s.profiles[n.toNat]).write f.toNat (ofTwoSigned hi lo) = none := by
        rcases bad with unknown | out | out
        · exact write_of_unknown _ _ unknown
        · exact write_of_out _ (.inl out)
        · exact write_of_out _ (.inr out)
      rw [refused]
    · obtain ⟨q, written, values⟩ := write_of_mem (s.profiles[n.toNat]) (v := ofTwoSigned hi lo) known low high
      exact ⟨{ q with defaulted := false }, rfl, bytes_of_values_set known values, by rw [written]⟩

end Sys2Proof.Machine
end

section
/-! PROOF. Bytes on the control line as frames, the receiver's rows in each framing state, and the end of a message that
was sent (R173 to R177): O44, O45 and O46. -/

namespace Sys2Proof.Machine

/-! ## A byte and its data bits -/

/-- The number of some bits, least significant first. -/
theorem testBit_foldr_bits (bits : List Bool) (i : Nat) :
    (bits.foldr (fun (b : Bool) (n : Nat) => b.toNat + 2 * n) 0).testBit i = bits.getD i false := by
  induction bits generalizing i with
  | nil => simp
  | cons b bits ih =>
    rw [List.foldr_cons]
    cases i with
    | zero => cases b <;> simp [Nat.testBit_zero]
    | succ i =>
      rw [List.getD_cons_succ, ← ih, Nat.testBit_succ]
      congr 1
      cases b
      · simp
      · rw [Bool.toNat_true]
        omega

theorem getLsbD_byteOfBits (bits : List Bool) {i : Nat} (h : i < 8) : (byteOfBits bits).getLsbD i = bits.getD i false := by
  rw [byteOfBits, BitVec.getLsbD_ofNat, testBit_foldr_bits]
  simp [h]

theorem getD_dataBits (b : Byte) {i : Nat} (h : i < 8) : (dataBits b).getD i false = b.getLsbD i := by
  simp [dataBits, List.getD_eq_getElem?_getD, List.getElem?_range h]

theorem length_dataBits (b : Byte) : (dataBits b).length = 8 := by simp [dataBits]

theorem byteOfBits_dataBits (b : Byte) : byteOfBits (dataBits b) = b :=
  BitVec.eq_of_getLsbD_eq fun i h => by rw [getLsbD_byteOfBits _ h, getD_dataBits _ h]

theorem dataBits_byteOfBits {d : List Bool} (h : d.length = 8) : dataBits (byteOfBits d) = d := by
  refine List.ext_getElem (by rw [length_dataBits, h]) fun i left right => ?_
  have eight : i < 8 := by rw [← h]; exact right
  have read : (dataBits (byteOfBits d)).getD i false = d.getD i false := by
    rw [getD_dataBits _ eight, getLsbD_byteOfBits _ eight]
  simpa [List.getD_eq_getElem?_getD, left, right] using read

theorem foldl_xor_eq (d : List Bool) (a : Bool) : d.foldl xor a = (a ^^ decide (d.count true % 2 = 1)) := by
  induction d generalizing a with
  | nil => simp
  | cons b d ih =>
    rw [List.foldl_cons, ih, List.count_cons]
    have flip : decide ((d.count true + 1) % 2 = 1) = !decide (d.count true % 2 = 1) := by
      rw [← decide_not, decide_eq_decide]
      omega
    cases b
    · simp
    · simp only [beq_self_eq_true, if_true, flip]
      cases a <;> cases decide (d.count true % 2 = 1) <;> rfl

theorem oddOnes_byteOfBits {d : List Bool} (h : d.length = 8) : oddOnes (byteOfBits d) = decide (d.count true % 2 = 1) := by
  rw [oddOnes, dataBits_byteOfBits h, foldl_xor_eq, Bool.false_xor]

/-! ## Frames -/

/-- With no parity a frame is the data bits and a stop bit. -/
theorem readFrame_without_parity {d : List Bool} (h : d.length = 8) (q stop : Bool) :
    readFrame .none (false :: (d ++ [stop])) = some (byteOfBits d, byteErrorOf false (!stop)) ∧
    readFrame .none (false :: (d ++ [q, stop])) = none := by
  match d, h with
  | [b0, b1, b2, b3, b4, b5, b6, b7], _ => exact ⟨rfl, rfl⟩

/-- With a parity a frame is the data bits, the parity bit and a stop bit. -/
theorem readFrame_with_parity {p : LineParity} {d : List Bool} (h : d.length = 8) {own : Bool}
    (parity : parityBit p (byteOfBits d) = some own) (q stop : Bool) :
    readFrame p (false :: (d ++ [stop])) = none ∧
    readFrame p (false :: (d ++ [q, stop])) = some (byteOfBits d, byteErrorOf (q != own) (!stop)) := by
  match d, h with
  | [b0, b1, b2, b3, b4, b5, b6, b7], _ =>
    refine ⟨?_, ?_⟩
    · simp only [List.cons_append, List.nil_append, readFrame, parity]
    · simp only [List.cons_append, List.nil_append, readFrame, parity]

theorem readFrame_byteFrame (p : LineParity) (b : Byte) : readFrame p (byteFrame p b) = some (b, .none) := by
  have length := length_dataBits b
  have same := byteOfBits_dataBits b
  rw [byteFrame, frameBits]
  cases own : parityBit p b with
  | none =>
    have without : p = .none := by cases p <;> first | rfl | cases own
    subst without
    have read := (readFrame_without_parity length false true).1
    rw [same] at read
    exact read
  | some q =>
    have read := (readFrame_with_parity length (by rw [same]; exact own) q true).2
    rw [same, bne_self_eq_false] at read
    exact read

/-- The parity bit is wrong where it makes the wrong count of ones. -/
theorem parity_wrong_iff {d : List Bool} (q : Bool) (even : Bool) :
    (q != (if even then decide (d.count true % 2 = 1) else !decide (d.count true % 2 = 1))) =
      !decide ((d ++ [q]).count true % 2 = if even then 0 else 1) := by
  rw [List.count_append]
  have parity : d.count true % 2 = 0 ∨ d.count true % 2 = 1 := by omega
  rcases parity with e | e <;> cases q <;> cases even <;> simp [e, Nat.add_mod]

theorem byteErrorOf_eq (wrong : Bool) (stop : Bool) : byteErrorOf wrong (!stop) =
    if wrong = false then (if stop then .none else .framing) else if stop then .parity else .both := by
  cases wrong <;> cases stop <;> rfl

/-- A frame with a parity, in the words of the count of ones. -/
theorem readFrame_counted {p : LineParity} (with_parity : p ≠ .none) {d : List Bool} (h : d.length = 8) (q stop : Bool) :
    readFrame p (false :: (d ++ [stop])) = none ∧
    readFrame p (false :: (d ++ [q, stop])) = some (byteOfBits d,
      if (d ++ [q]).count true % 2 = (if p = .even then 0 else 1) then (if stop then .none else .framing)
      else if stop then .parity else .both) := by
  have odd := oddOnes_byteOfBits h
  cases p with
  | none => exact absurd rfl with_parity
  | even =>
    obtain ⟨short, read⟩ := readFrame_with_parity (p := .even) h (congrArg some odd) q stop
    refine ⟨short, read.trans ?_⟩
    rw [byteErrorOf_eq, show (q != decide (d.count true % 2 = 1)) = _ from parity_wrong_iff q true]
    simp
  | odd =>
    obtain ⟨short, read⟩ := readFrame_with_parity (p := .odd) h (congrArg (fun x => some (!x)) odd) q stop
    refine ⟨short, read.trans ?_⟩
    rw [byteErrorOf_eq, show (q != !decide (d.count true % 2 = 1)) = _ from parity_wrong_iff q false]
    simp

/-! ## The rows of the receiver -/

section rows
variable {s : State} {b : Byte} {tail : List Bool} {err : ByteError}

theorem exec_countByte (rest : s.rest = []) (b : Byte) : exec (.countByte b) s = .next (s.takeCount b .none) := by
  change Host.Outcome.next (s.finish.receiveGood State.takeCount b) = _
  rw [finish_of_rest_nil s rest, State.receiveGood, receiveByte_of_frame _ _ s b .none (readFrame_byteFrame _ b)]

theorem exec_startMarker (rest : s.rest = []) : exec .startMarker s = .next (s.markStart 0xC5#8 .none) := by
  change Host.Outcome.next (s.finish.receiveGood State.markStart 0xC5#8) = _
  rw [finish_of_rest_nil s rest, State.receiveGood, receiveByte_of_frame _ _ s _ .none (readFrame_byteFrame _ _)]

theorem exec_badCountByte (rest : s.rest = []) (read : readFrame s.settings.line.parity (frameBits b tail) = some (b, err)) :
    exec (.badCountByte b tail) s = .next (s.refuseCount b err) := by
  change Host.Outcome.next (s.finish.receiveByte State.refuseCount (frameBits b tail)) = _
  rw [finish_of_rest_nil s rest, receiveByte_of_frame _ _ s b err read]

theorem exec_bodyByte (rest : s.rest = []) (read : readFrame s.settings.line.parity (frameBits b tail) = some (b, err)) :
    exec (.bodyByte b tail) s = .next (s.storeByte b err) := by
  change Host.Outcome.next (s.finish.receiveByte State.storeByte (frameBits b tail)) = _
  rw [finish_of_rest_nil s rest, receiveByte_of_frame _ _ s b err read]

theorem exec_controlMessageReceived (rest : s.rest = [])
    (read : readFrame s.settings.line.parity (frameBits b tail) = some (b, err)) :
    exec (.controlMessageReceived b tail) s = .next (s.completeMessage b err) := by
  change Host.Outcome.next (s.finish.receiveByte State.completeMessage (frameBits b tail)) = _
  rw [finish_of_rest_nil s rest, receiveByte_of_frame _ _ s b err read]

/-- Bits that are no byte leave the three rows that name them without effect. -/
theorem exec_of_no_byte (rest : s.rest = []) (read : readFrame s.settings.line.parity (frameBits b tail) = none) :
    exec (.badCountByte b tail) s = .next s ∧ exec (.bodyByte b tail) s = .next s ∧
      exec (.controlMessageReceived b tail) s = .next s := by
  refine ⟨?_, ?_, ?_⟩
  · change Host.Outcome.next (s.finish.receiveByte State.refuseCount (frameBits b tail)) = _
    rw [finish_of_rest_nil s rest, receiveByte_of_no_frame _ _ s read]
  · change Host.Outcome.next (s.finish.receiveByte State.storeByte (frameBits b tail)) = _
    rw [finish_of_rest_nil s rest, receiveByte_of_no_frame _ _ s read]
  · change Host.Outcome.next (s.finish.receiveByte State.completeMessage (frameBits b tail)) = _
    rw [finish_of_rest_nil s rest, receiveByte_of_no_frame _ _ s read]

end rows

/-! ## Messages abandoned or discarded -/

/-- A message dropped with at most one error has that error's cause, and none of the free values is used. -/
theorem dropMessage_of_one (pe fe : Bool) (one : (pe && fe) = false) (other : LineCause) (s : State) :
    s.dropMessage pe fe other =
      (s.withRx .hunt).notify (.lineError (if pe then .parity else if fe then .framing else other)) := by
  cases pe <;> cases fe <;> first | rfl | cases one

/-- A message dropped with both errors has one of the two causes. -/
theorem dropMessage_of_both (other : LineCause) (s : State) : ∃ cause, (cause = .parity ∨ cause = .framing) ∧
    s.dropMessage true true other = ({ s.withRx .hunt with freeCount := s.freeCount + 1 }).notify (.lineError cause) := by
  refine ⟨_, ?_, rfl⟩
  rw [errorCause]
  split
  · exact .inr rfl
  · exact .inl rfl

theorem hasParity_eq (err : ByteError) : hasParity err = (decide (err = .parity) || decide (err = .both)) := by
  cases err <;> rfl

theorem hasFraming_eq (err : ByteError) : hasFraming err = (decide (err = .framing) || decide (err = .both)) := by
  cases err <;> rfl

/-! ## The rows in each framing state -/

section states
variable {s : State}

theorem goodCount_iff (b : Byte) : goodCount b = true ↔ 2 ≤ b.toNat ∧ b.toNat ≤ 250 := by
  simp [goodCount]

theorem markStart_eq (s : State) : s.markStart 0xC5#8 .none = if s.ctl.rx = .hunt then s.withRx .count else s := by
  unfold State.markStart
  cases h : s.ctl.rx <;> simp

theorem takeCount_of_count (h : s.ctl.rx = .count) {b : Byte} (good : goodCount b = true) :
    s.takeCount b .none = s.withRx (.body b.toNat [] false false) := by
  rw [State.takeCount, h]
  simp [good]

theorem takeCount_of_other {b : Byte} (h : s.ctl.rx ≠ .count ∨ goodCount b = false) : s.takeCount b .none = s := by
  unfold State.takeCount
  split
  · next count =>
    rcases h with other | bad
    · exact absurd count other
    · simp [bad]
  · rfl
  · rfl

theorem refuseCount_of_other {b : Byte} {err : ByteError} (h : s.ctl.rx ≠ .count) : s.refuseCount b err = s := by
  unfold State.refuseCount
  split
  · next count => exact absurd count h
  · rfl
  · rfl

theorem refuseCount_of_good (h : s.ctl.rx = .count) {b : Byte} (good : goodCount b = true) : s.refuseCount b .none = s := by
  rw [State.refuseCount, h]
  simp [good]

theorem refuseCount_of_bad (h : s.ctl.rx = .count) {b : Byte} {err : ByteError} (bad : err = .none → goodCount b = false) :
    s.refuseCount b err = s.dropMessage (hasParity err) (hasFraming err) .count := by
  rw [State.refuseCount, h]
  dsimp only
  rw [if_neg]
  intro both
  rw [Bool.and_eq_true, decide_eq_true_eq] at both
  rw [bad both.1] at both
  exact absurd both.2 (by simp)

theorem storeByte_of_body {n : Nat} {got : List Byte} {pe fe : Bool} (h : s.ctl.rx = .body n got pe fe) (b : Byte)
    (err : ByteError) : s.storeByte b err = if got.length + 1 < n then
      s.withRx (.body n (got ++ [b]) (pe || hasParity err) (fe || hasFraming err)) else s := by
  rw [State.storeByte, h]

theorem completeMessage_of_body {n : Nat} {got : List Byte} {pe fe : Bool} (h : s.ctl.rx = .body n got pe fe) (b : Byte)
    (err : ByteError) (early : got.length + 1 ≠ n) : s.completeMessage b err = s := by
  rw [State.completeMessage, h]
  exact if_neg early

/-- Before its body a message stores no byte and cannot end. -/
theorem rows_before_body (h : s.ctl.rx = .hunt ∨ s.ctl.rx = .count) (b : Byte) (err : ByteError) :
    s.storeByte b err = s ∧ s.completeMessage b err = s := by
  rcases h with h | h <;> simp [State.storeByte, State.completeMessage, h]

theorem abandonMessage_of_receiving (h : s.ctl.rx ≠ .hunt) :
    s.abandonMessage = (s.withRx .hunt).notify (.lineError .gap) := by
  unfold State.abandonMessage
  split
  · next hunt => exact absurd hunt h
  · rfl
  · rfl

end states

/-- Settles O44. -/
theorem messageFraming : Obligations.MessageFraming := by
  refine ⟨readFrame_byteFrame, fun p d q stop h => ⟨byteOfBits d, fun i hi => getLsbD_byteOfBits d hi, fun without => ?_,
    fun parity => readFrame_counted parity h q stop⟩, fun s rest => ?_⟩
  · subst without
    obtain ⟨read, long⟩ := readFrame_without_parity h q stop
    exact ⟨by rw [List.cons_append, read]; cases stop <;> rfl, long⟩
  intro hunting
  refine ⟨?_, fun b => ⟨fun h low high => ?_, fun h => ?_⟩, fun b tail read => exec_of_no_byte rest read,
    fun b tail err read => ⟨fun other => ?_, fun count => ⟨fun clean low high => ?_, fun clean bad => ?_, fun parity => ?_,
      fun framing => ?_, fun both => ?_⟩, ?_, fun n got pe fe body => ⟨fun full => ?_, fun early => ?_⟩, fun before => ?_⟩,
    fun hunt => ?_, fun receiving => ?_⟩
  · rw [exec_startMarker rest, markStart_eq]
    rfl
  · rw [exec_countByte rest, takeCount_of_count h ((goodCount_iff b).mpr ⟨low, high⟩)]
    rfl
  · rw [exec_countByte rest, takeCount_of_other]
    refine h.imp id fun bad => ?_
    rw [Bool.eq_false_iff, ne_eq, goodCount_iff]
    omega
  · rw [exec_badCountByte rest read, refuseCount_of_other other]
  · subst clean
    rw [exec_badCountByte rest read, refuseCount_of_good count ((goodCount_iff b).mpr ⟨low, high⟩)]
  · subst clean
    rw [exec_badCountByte rest read, refuseCount_of_bad count fun _ => ?_]
    · rfl
    · rw [Bool.eq_false_iff, ne_eq, goodCount_iff]
      omega
  · subst parity
    rw [exec_badCountByte rest read, refuseCount_of_bad count (by simp)]
    rfl
  · subst framing
    rw [exec_badCountByte rest read, refuseCount_of_bad count (by simp)]
    rfl
  · subst both
    obtain ⟨cause, named, dropped⟩ := dropMessage_of_both .count s
    exact ⟨cause, named, by rw [exec_badCountByte rest read, refuseCount_of_bad count (by simp)]; exact congrArg _ dropped⟩
  · intro n got pe fe body short parity framing
    rw [exec_bodyByte rest read, storeByte_of_body body, if_pos short, hasParity_eq, hasFraming_eq]
    simp only [parity, framing, Bool.or_assoc]
    rfl
  · rw [exec_bodyByte rest read, storeByte_of_body body, if_neg (by omega)]
  · rw [exec_controlMessageReceived rest read, completeMessage_of_body body b err early]
  · obtain ⟨stored, completed⟩ := rows_before_body before b err
    exact ⟨by rw [exec_bodyByte rest read, stored], by rw [exec_controlMessageReceived rest read, completed]⟩
  · change Host.Outcome.next s.finish.abandonMessage = _
    rw [finish_of_rest_nil s rest, State.abandonMessage, hunt]
  · change Host.Outcome.next s.finish.abandonMessage = _
    rw [finish_of_rest_nil s rest, abandonMessage_of_receiving receiving]
    rfl

/-! ## The end of a message received -/

theorem completeMessage_of_last {s : State} {n : Nat} {got : List Byte} {pe fe : Bool} (h : s.ctl.rx = .body n got pe fe)
    (b : Byte) (err : ByteError) (last : got.length + 1 = n) :
    s.completeMessage b err =
      if (pe || hasParity err) || (fe || hasFraming err) then
        s.dropMessage (pe || hasParity err) (fe || hasFraming err) .count
      else match messageOf (got ++ [b]) with
        | none => s.withRx .hunt
        | some m => (s.withRx .hunt).offerOrder m := by
  rw [State.completeMessage, h]
  exact if_pos last

/-- Settles O45. -/
theorem messageCompletion : Obligations.MessageCompletion := by
  intro s n got pe fe b tail err rest read body last two parity framing hunting
  have parity_eq : (pe || hasParity err) = parity := by rw [hasParity_eq, ← Bool.or_assoc]
  have framing_eq : (fe || hasFraming err) = framing := by rw [hasFraming_eq, ← Bool.or_assoc]
  have run : exec (.controlMessageReceived b tail) s = .next (if parity || framing then
      s.dropMessage parity framing .count
      else match messageOf (got ++ [b]) with
        | none => s.withRx .hunt
        | some m => (s.withRx .hunt).offerOrder m) := by
    rw [exec_controlMessageReceived rest read, completeMessage_of_last body b err last, parity_eq, framing_eq]
  refine ⟨fun p f kind tag more bytes => ?_, fun p f => ?_, fun p f => ?_, fun p f => ?_⟩
  · have offered : exec (.controlMessageReceived b tail) s = .next ((s.withRx .hunt).offerOrder ⟨kind, tag, more⟩) := by
      rw [run, p, f, bytes]
      rfl
    refine ⟨fun few => ?_, fun full => ?_⟩
    · rw [offered, State.offerOrder, if_pos (show (s.withRx .hunt).ctl.buffer.length < 4 from few)]
      rfl
    · rw [offered, State.offerOrder, if_neg (by show ¬ s.ctl.buffer.length < 4; omega)]
      rfl
  · rw [run, p, f]
    rfl
  · rw [run, p, f]
    rfl
  · obtain ⟨cause, named, dropped⟩ := dropMessage_of_both .count s
    exact ⟨cause, named, by rw [run, p, f]; exact congrArg _ dropped⟩

/-! ## The end of a message sent -/

theorem endMessage_of_answer {ctl : ControlLine} (h : ctl.tx = .answer) : ctl.endMessage = { ctl with
    answer := none
    newLine := none
    notices := ctl.notices.tail
    tx := match ctl.notices with
      | [] => .idle
      | n :: _ => .notice n } := by
  rw [ControlLine.endMessage, h]
  unfold ControlLine.choose
  cases hn : ctl.notices <;> rfl

theorem endMessage_of_notice {ctl : ControlLine} {n : Notice} (h : ctl.tx = .notice n) : ctl.endMessage = { ctl with
    notices := if ctl.answer.isSome then ctl.notices else ctl.notices.tail
    tx := match ctl.answer, ctl.notices with
      | some _, _ => .answer
      | none, [] => .idle
      | none, m :: _ => .notice m } := by
  rw [ControlLine.endMessage, h]
  unfold ControlLine.choose
  cases ha : ctl.answer <;> cases hn : ctl.notices <;> rfl

/-- Settles O46. -/
theorem controlTransmissionEnds : Obligations.ControlTransmissionEnds := by
  intro s rest
  have run : exec .controlTransmitEnd s = .next s.endControlMessage := by
    change Host.Outcome.next s.finish.endControlMessage = _
    rw [finish_of_rest_nil s rest]
  have plain : s.ctl.tx ≠ .answer ∨ s.ctl.newLine = none →
      exec .controlTransmitEnd s = .next { s with ctl := s.ctl.endMessage } := fun h => by
    rw [run, State.endControlMessage]
    split
    · next line answer settings =>
      rcases h with other | h
      · exact absurd answer other
      · rw [h] at settings
        cases settings
    · rfl
  refine ⟨fun idle => ?_, fun answer unset => ?_, fun n notice => ?_, ?_⟩
  · rw [plain (.inl (by rw [idle]; simp)), ControlLine.endMessage, idle]
  · rw [plain (.inr unset), endMessage_of_answer answer, ← unset] <;> rfl
  · rw [plain (.inl (by rw [notice]; simp)), endMessage_of_notice notice] <;> rfl
  · intro line answer settings ended
    have ends : exec .controlTransmitEnd s = .next ended.abandonMessage := by
      rw [run, State.endControlMessage, answer, settings]
      dsimp only
      rw [endMessage_of_answer answer] <;> rfl
    refine ⟨fun hunt => ?_, fun receiving => ?_⟩
    · rw [ends, State.abandonMessage, show ended.ctl.rx = .hunt from hunt]
    · rw [ends, abandonMessage_of_receiving (show ended.ctl.rx ≠ .hunt from receiving)]
      rfl

end Sys2Proof.Machine
end

section
/-! PROOF. The link codec: a SPEECH payload packed and unpacked, and the decoder in step with the encoder (R53, R54 to R57,
R64, R182): O59 and O60. -/

namespace Sys2Proof.Machine

/-! ## Numbers as bits -/

/-- A number's bits, most significant first, are those of `testBit_foldr_bits` read backwards. -/
theorem ofBits_eq_foldr (bs : List Bool) :
    ofBits bs = bs.reverse.foldr (fun (b : Bool) (n : Nat) => b.toNat + 2 * n) 0 := by
  rw [ofBits, List.foldr_reverse]
  exact congrArg (fun f => bs.foldl f 0) (funext fun n => funext fun b => Nat.add_comm _ _)

theorem testBit_ofBits (bs : List Bool) (i : Nat) : (ofBits bs).testBit i = bs.reverse.getD i false := by
  rw [ofBits_eq_foldr, testBit_foldr_bits]

theorem length_bitsOf (w n : Nat) : (bitsOf w n).length = w := by simp [bitsOf]

theorem getD_reverse_bitsOf (w n i : Nat) : (bitsOf w n).reverse.getD i false = (decide (i < w) && n.testBit i) := by
  by_cases h : i < w
  · have place : w - 1 - (w - 1 - i) = i := by omega
    simp [bitsOf, List.getD_eq_getElem?_getD, h, place]
  · simp [List.getD_eq_getElem?_getD, bitsOf, h]

theorem ofBits_bitsOf {w n : Nat} (h : n < 2 ^ w) : ofBits (bitsOf w n) = n := by
  refine Nat.eq_of_testBit_eq fun i => ?_
  rw [testBit_ofBits, getD_reverse_bitsOf]
  by_cases low : i < w
  · simp [low]
  · rw [Nat.testBit_lt_two_pow (h.trans_le (Nat.pow_le_pow_right (by omega) (not_lt.mp low)))]
    simp

theorem bitsOf_ofBits {w : Nat} {bs : List Bool} (h : bs.length = w) : bitsOf w (ofBits bs) = bs := by
  refine List.ext_getElem (by rw [length_bitsOf, h]) fun i left right => ?_
  have place : bs.length - 1 - (w - 1 - i) = i := by omega
  simp only [bitsOf, List.getElem_map, List.getElem_range, testBit_ofBits]
  rw [List.getD_eq_getElem _ _ (by rw [List.length_reverse]; omega), List.getElem_reverse]
  simp only [place]

theorem ofBits_lt (bs : List Bool) : ofBits bs < 2 ^ bs.length := by
  refine Nat.lt_pow_two_of_testBit _ fun i hi => ?_
  rw [testBit_ofBits]
  simp [List.getD_eq_getElem?_getD, hi]

/-! ## Bytes -/

/-- Bits that fill their bytes are packed and unpacked without loss. -/
theorem unpackBytes_packBytes : ∀ (n : Nat) (bits : List Bool), bits.length = 8 * n →
    unpackBytes (packBytes bits) = bits ∧ (packBytes bits).length = n
  | 0, bits, h => by
    rw [List.length_eq_zero_iff.mp h]
    exact ⟨rfl, rfl⟩
  | n + 1, bits, h => by
    match bits, h with
    | a :: b :: c :: d :: e :: f :: g :: i :: rest, h =>
      obtain ⟨unpacked, length⟩ := unpackBytes_packBytes n rest (by simp only [List.length_cons] at h; omega)
      have byte : (BitVec.ofNat 8 (ofBits [a, b, c, d, e, f, g, i])).toNat = ofBits [a, b, c, d, e, f, g, i] := by
        rw [BitVec.toNat_ofNat]
        exact Nat.mod_eq_of_lt (ofBits_lt _)
      refine ⟨?_, by rw [packBytes, List.length_cons, length]⟩
      rw [packBytes, unpackBytes, List.flatMap_cons, byte,
        bitsOf_ofBits (w := 8) (bs := [a, b, c, d, e, f, g, i]) rfl]
      exact congrArg ([a, b, c, d, e, f, g, i] ++ ·) unpacked

/-! ## Subframes -/

theorem length_flatMap_bitsOf (w : Nat) (vs : List Nat) : (vs.flatMap (bitsOf w)).length = w * vs.length := by
  induction vs with
  | nil => rfl
  | cons v vs ih => rw [List.flatMap_cons, List.length_append, length_bitsOf, ih, List.length_cons, Nat.mul_succ, Nat.add_comm]

theorem takeNumbers_flatMap {w : Nat} : ∀ {vs : List Nat} (more : List Bool), (∀ v ∈ vs, v < 2 ^ w) →
    takeNumbers w vs.length (vs.flatMap (bitsOf w) ++ more) = vs
  | [], _, _ => rfl
  | v :: vs, more, h => by
    rw [List.length_cons, takeNumbers, List.flatMap_cons, List.append_assoc, List.take_left' (length_bitsOf w v),
      List.drop_left' (length_bitsOf w v), ofBits_bitsOf (h v List.mem_cons_self),
      takeNumbers_flatMap more fun x hx => h x (List.mem_cons_of_mem v hx)]

/-- A scale and 40 codes that their fields can hold (R53). -/
def Subframe.Fits (r : Rate) (sf : Subframe) : Prop := sf.q < 16 ∧ sf.codes.length = 40 ∧ ∀ v ∈ sf.codes, v < 2 ^ r.bits

/-- The bits of a subframe (R182). -/
def Subframe.packed (r : Rate) (sf : Subframe) : List Bool := bitsOf 4 sf.q ++ sf.codes.flatMap (bitsOf r.bits)

theorem Subframe.Fits.length_packed {r : Rate} {sf : Subframe} (h : sf.Fits r) : (sf.packed r).length = 4 + 40 * r.bits := by
  rw [Subframe.packed, List.length_append, length_bitsOf, length_flatMap_bitsOf, h.2.1, Nat.mul_comm]

theorem takeSubframes_packed {r : Rate} : ∀ {subs : List Subframe}, (∀ sf ∈ subs, sf.Fits r) →
    takeSubframes r subs.length (subs.flatMap (Subframe.packed r)) = subs
  | [], _ => rfl
  | sf :: subs, h => by
    have length := (h sf List.mem_cons_self).length_packed
    obtain ⟨scale, forty, codes⟩ := h sf List.mem_cons_self
    rw [List.length_cons, takeSubframes, List.flatMap_cons, List.drop_left' length,
      takeSubframes_packed fun x hx => h x (List.mem_cons_of_mem sf hx), Subframe.packed, List.append_assoc,
      List.take_left' (length_bitsOf 4 sf.q), List.drop_left' (length_bitsOf 4 sf.q), ofBits_bitsOf scale, ← forty,
      takeNumbers_flatMap _ codes]

theorem length_flatMap_packed {r : Rate} {subs : List Subframe} (h : ∀ sf ∈ subs, sf.Fits r) :
    (subs.flatMap (Subframe.packed r)).length = (4 + 40 * r.bits) * subs.length := by
  induction subs with
  | nil => rfl
  | cons sf subs ih =>
    rw [List.flatMap_cons, List.length_append, (h sf List.mem_cons_self).length_packed,
      ih fun x hx => h x (List.mem_cons_of_mem sf hx), List.length_cons, Nat.mul_succ, Nat.add_comm]

theorem payload_round_trip {r : Rate} {subs : List Subframe} (four : subs.length = 4) (h : ∀ sf ∈ subs, sf.Fits r) :
    (packPayload r subs).length = r.payloadBytes ∧ unpackPayload r (packPayload r subs) = subs := by
  have bits : (subs.flatMap (Subframe.packed r)).length = 8 * r.payloadBytes := by
    rw [length_flatMap_packed h, four]
    cases r <;> rfl
  obtain ⟨unpacked, length⟩ := unpackBytes_packBytes r.payloadBytes _ bits
  refine ⟨length, ?_⟩
  change takeSubframes r 4 (unpackBytes (packBytes (subs.flatMap (Subframe.packed r)))) = subs
  rw [unpacked, ← four, takeSubframes_packed h]

/-- Settles O59. -/
theorem speechPayloadRoundTrip : Obligations.SpeechPayloadRoundTrip :=
  fun _ _ four fits => payload_round_trip four fits

/-! ## The encoder's codes -/

theorem quantise_lt (b q : Nat) (y x : Int) : quantise b q y x < 2 ^ b := by
  have positive : (0 : Int) < 2 ^ b := by positivity
  have below : clamp 0 (2 ^ b - 1) ((x - predict y) / 2 ^ (q + 1) + 2 ^ (b - 1)) ≤ 2 ^ b - 1 := by
    unfold clamp
    split
    · omega
    · split <;> omega
  have low : ((quantise b q y x : Nat) : Int) < 2 ^ b := by
    unfold quantise
    omega
  exact_mod_cast low

theorem quantiseAll_codes (b q : Nat) : ∀ (xs : List Int) (y : Int),
    (quantiseAll b q y xs).1.length = xs.length ∧ ∀ v ∈ (quantiseAll b q y xs).1, v < 2 ^ b
  | [], _ => ⟨rfl, fun _ h => absurd h List.not_mem_nil⟩
  | x :: xs, y => by
    obtain ⟨length, codes⟩ := quantiseAll_codes b q xs (reconstruct b q y (quantise b q y x))
    refine ⟨congrArg (· + 1) length, fun v hv => ?_⟩
    rcases List.mem_cons.mp hv with rfl | hv
    · exact quantise_lt b q y x
    · exact codes v hv

theorem selectScale_lt (b peak : Nat) : selectScale b peak < 16 := by
  unfold selectScale
  cases h : (List.range 16).find? fun q => peak ≤ (2 ^ b - 1) * 2 ^ q with
  | none => exact Nat.lt_succ_self 15
  | some q => exact List.mem_range.mp (List.mem_of_find?_eq_some h)

theorem encodeSubframes_fits (r : Rate) : ∀ (n : Nat) (before y : Int) (xs : List Int), xs.length = 40 * n →
    (encodeSubframes r.bits n before y xs).1.length = n ∧ ∀ sf ∈ (encodeSubframes r.bits n before y xs).1, sf.Fits r
  | 0, _, _, _, _ => ⟨rfl, fun _ h => absurd h List.not_mem_nil⟩
  | n + 1, before, y, xs, h => by
    obtain ⟨length, fits⟩ := encodeSubframes_fits r n ((xs.take 40).getLastD before)
      (quantiseAll r.bits (selectScale r.bits (residualPeak before (xs.take 40))) y (xs.take 40)).2 (xs.drop 40)
      (by rw [List.length_drop]; omega)
    refine ⟨congrArg (· + 1) length, fun sf hsf => ?_⟩
    rcases List.mem_cons.mp hsf with rfl | hsf
    · obtain ⟨forty, codes⟩ := quantiseAll_codes r.bits (selectScale r.bits (residualPeak before (xs.take 40))) (xs.take 40) y
      exact ⟨selectScale_lt _ _, forty.trans (by rw [List.length_take]; omega), codes⟩
    · exact fits sf hsf

/-! ## The decoder on the encoder's codes -/

theorem getLastD_cons (x d : Int) (xs : List Int) : (x :: xs).getLastD d = xs.getLastD x := by
  cases xs <;> rfl

/-- The decoder's samples of a subframe are the encoder's reconstructions, the last of which is its y_prev. -/
theorem decodeCodes_quantiseAll (b q : Nat) : ∀ (xs : List Int) (y : Int),
    decodeCodes b q y (quantiseAll b q y xs).1 = trackSubframe b q y xs ∧
      (trackSubframe b q y xs).getLastD y = (quantiseAll b q y xs).2
  | [], _ => ⟨rfl, rfl⟩
  | x :: xs, y => by
    obtain ⟨decoded, last⟩ := decodeCodes_quantiseAll b q xs (reconstruct b q y (quantise b q y x))
    exact ⟨congrArg (_ :: ·) decoded, (getLastD_cons _ _ _).trans last⟩

theorem getLastD_append (xs ys : List Int) (d : Int) : (xs ++ ys).getLastD d = ys.getLastD (xs.getLastD d) := by
  induction xs generalizing d with
  | nil => rfl
  | cons x xs ih => rw [List.cons_append, getLastD_cons, ih, getLastD_cons]

/-- The decoder's samples of a block, subframe by subframe. -/
theorem decodeSubframes_encodeSubframes (b : Nat) : ∀ (n : Nat) (before y : Int) (xs : List Int),
    decodeSubframes b y (encodeSubframes b n before y xs).1 = trackBlock b n before y xs ∧
      (trackBlock b n before y xs).getLastD y = (encodeSubframes b n before y xs).2
  | 0, _, _, _ => ⟨rfl, rfl⟩
  | n + 1, before, y, xs => by
    obtain ⟨codes, last⟩ := decodeCodes_quantiseAll b (selectScale b (residualPeak before (xs.take 40))) (xs.take 40) y
    obtain ⟨decoded, lasts⟩ := decodeSubframes_encodeSubframes b n ((xs.take 40).getLastD before)
      (quantiseAll b (selectScale b (residualPeak before (xs.take 40))) y (xs.take 40)).2 (xs.drop 40)
    rw [← last] at decoded lasts
    rw [encodeSubframes, trackBlock]
    dsimp only
    rw [decodeSubframes, codes, getLastD_append, lasts, ← last]
    exact ⟨congrArg _ decoded, rfl⟩

/-- Settles O60: what the decoder unpacks is what the encoder packed, and it rebuilds it code by code. -/
theorem decoderTracksEncoder : Obligations.DecoderTracksEncoder := by
  intro r y input length
  obtain ⟨four, fits⟩ := encodeSubframes_fits r 4 (input.headD 0) y (input.drop 1) (by rw [List.length_drop, length])
  obtain ⟨_, unpacked⟩ := payload_round_trip four fits
  obtain ⟨decoded, last⟩ := decodeSubframes_encodeSubframes r.bits 4 (input.headD 0) y (input.drop 1)
  have rebuilt : decodeSpeech r y (encodeSpeech r y input).1 = trackBlock r.bits 4 (input.headD 0) y (input.drop 1) := by
    rw [decodeSpeech, encodeSpeech, unpacked, decoded]
  exact ⟨rebuilt, length_decodeSpeech r y _, by rw [rebuilt, last]; rfl⟩

end Sys2Proof.Machine
end

section
/-! PROOF. A condition found present (R150, R151): what a finding makes of the channel's context, and O29. -/

namespace Sys2Proof.Machine

/-! ## The context after a finding -/

section found
variable {cls : FaultClass} {time limit : Nat} {k : FaultKind} {c : Context}

/-- A finding writes the fault records, the state and the outcome alone. -/
theorem found_touches : c.found cls time limit k = { c with
    faults := (c.found cls time limit k).faults
    state := (c.found cls time limit k).state
    outcome := (c.found cls time limit k).outcome } := by
  unfold Context.found
  split
  · rfl
  · split
    · dsimp only
      split <;> rfl
    · rfl

theorem fault_found_other {j : FaultKind} (h : j ≠ k) : (c.found cls time limit k).fault j = c.fault j := by
  unfold Context.found
  split
  · rfl
  · split
    · dsimp only
      split
      · exact fault_setFault_other c k j _ h
      · exact fault_setFault_other c k j _ h
    · exact fault_setFault_other c k j _ h

/-- The record of the kind found: seen, and recognised where it was NONE. -/
theorem fault_found_self (hc : c.state ≠ .closing) : (c.found cls time limit k).fault k =
    if (c.fault k).state = .none then (c.fault k).seen.recognised cls time limit else (c.fault k).seen := by
  unfold Context.found
  rw [if_neg hc]
  split
  · dsimp only
    split
    · exact fault_setFault_self c k _
    · exact fault_setFault_self c k _
  · exact fault_setFault_self c k _

theorem recognised_present (r : FaultRecord) : (r.recognised cls time limit).present = r.present := by
  cases cls <;> rfl

/-- A kind that was NONE takes the recognised state of its class. -/
theorem recognised_state {r : FaultRecord} (h : r.state = .none) :
    (r.seen.recognised cls time limit).state = stateOfClass cls := by
  cases cls
  · exact h
  · rfl
  · rfl
  · rfl

theorem found_present (hc : c.state ≠ .closing) : ((c.found cls time limit k).fault k).present = true := by
  rw [fault_found_self hc]
  split
  · exact recognised_present _
  · rfl

theorem found_judged (hc : c.state ≠ .closing) :
    ((c.found cls time limit k).fault k).state = judgedState cls true (c.fault k).state := by
  rw [fault_found_self hc]
  unfold judgedState
  split
  · next h => rw [recognised_state h, if_pos ⟨rfl, h⟩]
  · next h =>
    rw [if_neg fun w => h w.2]
    rfl

theorem fallsBy_iff : c.fallsBy cls k = true ↔
    (c.state = .aligning ∨ c.state = .active) ∧ (c.fault k).state = .none ∧ (cls = .retry ∨ cls = .latched) := by
  simp only [Context.fallsBy, Bool.and_eq_true, Bool.or_eq_true, decide_eq_true_eq, and_assoc]

/-- A channel that is neither CLOSING nor FAULTED serves. -/
theorem serving_of_ne (closing : c.state ≠ .closing) (faulted : c.state ≠ .faulted) :
    c.state = .aligning ∨ c.state = .active := by
  cases h : c.state with
  | aligning => exact .inl rfl
  | active => exact .inr rfl
  | faulted => exact absurd h faulted
  | closing => exact absurd h closing

/-- A finding takes a channel to FAULTED exactly where its kind was NONE and the class is RETRY or LATCHED. -/
theorem found_state (hc : c.state ≠ .closing) : (c.found cls time limit k).state =
    if (c.fault k).state = .none ∧ (cls = .retry ∨ cls = .latched) then .faulted else c.state := by
  by_cases known : (c.fault k).state = .none
  · rw [found_of_none hc known]
    dsimp only
    by_cases falls : c.fallsBy cls k = true
    · rw [if_pos falls, if_pos (fallsBy_iff.mp falls).2]
      rfl
    · rw [if_neg falls]
      split
      · next severe =>
        by_contra other
        exact falls (fallsBy_iff.mpr ⟨serving_of_ne hc other, severe⟩)
      · rfl
  · rw [found_of_known hc known, if_neg fun w => known w.1]
    rfl

end found

/-- The channel table after a finding. -/
theorem findPresent_chan {ch : Chan} {k : FaultKind} {s : State} {c : Context} (h : s.chan[ch] = some c) :
    (s.findPresent ch k).chan = s.chan.set ch (some (s.foundIn k c)) := by
  rw [findPresent_eq ch k s h]
  dsimp only
  split <;> rfl

/-- The notices of a finding are those of its reports. -/
theorem findPresent_ctl {ch : Chan} {k : FaultKind} {s : State} {c : Context} (h : s.chan[ch] = some c) :
    (s.findPresent ch k).ctl = (s.notifyAll ((s.raisedBy k ch c).map FaultReport.notice)).ctl := by
  rw [findPresent_eq ch k s h, notifyAll_ctl]
  dsimp only
  split <;> rfl

theorem findPresent_history {ch : Chan} {k : FaultKind} {s : State} {c : Context} (h : s.chan[ch] = some c) :
    (s.findPresent ch k).history = s.historyAfter (s.raisedBy k ch c) := by
  rw [findPresent_eq ch k s h]
  dsimp only
  split <;> rfl

/-- Settles O29: where the class acts, the finding is its report, the record recognised, and the fall to FAULTED. -/
theorem findingRecognisesByClass : Obligations.FindingRecognisesByClass := by
  intro s t ch k c called open_ ht p cls found
  subst ht
  have frame := supervised_findPresent ch k s
  have self : (s.findPresent ch k).chan[ch] = some (s.foundIn k c) := by
    rw [findPresent_chan called]
    exact set_getElem_fin_self _ _ _
  refine ⟨frame.keeps, frame.others, frame.hw, frame.link, frame.due, frame.rest, fun quiet => ?_, fun fresh acts => ?_⟩
  · have silent : s.raisedBy k ch c = [] := if_neg fun w => quiet.elim (fun known => known w.2.1) fun off => w.2.2 off
    have stays : s.fallsIn k c = false := by
      rw [Bool.eq_false_iff]
      intro falls
      obtain ⟨_, fresh, severe⟩ := fallsBy_iff.mp falls
      rcases quiet with known | off
      · exact known fresh
      · rcases severe with e | e <;> exact absurd (off.symm.trans e) (by simp)
    have context : s.foundIn k c = c.setFault k found := by
      unfold State.foundIn
      by_cases fresh : (c.fault k).state = .none
      · have off : cls = .off := quiet.resolve_left fun known => known fresh
        have plain : c.fallsBy (s.profileOf c).cls[k.index] k = false := stays
        rw [found_of_none open_ fresh]
        dsimp only
        rw [plain, show (s.profileOf c).cls[k.index] = .off from off]
        rfl
      · exact found_of_known open_ fresh
    rw [findPresent_eq ch k s called, silent, stays, context]
    rfl
  · have raised : s.raisedBy k ch c = [⟨ch, k, cls, .raised⟩] := by
      rw [raisedBy_of_none open_ fresh, if_neg acts]
    have record : (s.foundIn k c).fault k = found.recognised cls p.retryTime[k.index] p.retryLimit[k.index] := by
      rw [State.foundIn, fault_found_self open_, if_pos fresh]
      rfl
    have state : (s.foundIn k c).state = if cls = .retry ∨ cls = .latched then .faulted else c.state := by
      rw [State.foundIn, found_state open_]
      exact if_congr (and_iff_right fresh) rfl rfl
    refine ⟨?_, ?_, _, self, fun j hj => fault_found_other hj, fun report => ⟨?_, ?_, ?_⟩, fun retry => ⟨?_, ?_⟩,
      fun latched => ⟨?_, ?_⟩, fun severe working => ?_, fun still => ?_⟩
    · rw [findPresent_ctl called, raised]
      rfl
    · rw [findPresent_history called, raised]
      rfl
    · rw [record, report]
      rfl
    · rw [state, if_neg (by simp [report])]
    · rw [findPresent_eq ch k s called]
      have stays : s.fallsIn k c = false := by
        rw [Bool.eq_false_iff]
        intro falls
        obtain ⟨_, _, severe⟩ := fallsBy_iff.mp falls
        rcases severe with e | e <;> exact absurd (report.symm.trans e) (by simp)
      rw [stays]
      rfl
    · rw [record, retry]
      rfl
    · rw [state, if_pos (.inl retry)]
    · rw [record, latched]
      rfl
    · rw [state, if_pos (.inr latched)]
    · have class_ : cls = .retry ∨ cls = .latched := by
        cases h : cls with
        | off => exact absurd h acts
        | report => exact absurd h severe
        | retry => exact .inl rfl
        | latched => exact .inr rfl
      have serving := serving_of_ne open_ working
      have falls : s.fallsIn k c = true := fallsBy_iff.mpr ⟨serving, fresh, class_⟩
      have outcome : (s.foundIn k c).outcome = c.outcome.withdraw := by
        have falls' : c.fallsBy (s.profileOf c).cls[k.index] k = true := falls
        unfold State.foundIn
        rw [found_of_none open_ fresh]
        dsimp only
        rw [falls']
        rfl
      rw [findPresent_eq ch k s called]
      dsimp only
      rw [if_pos falls]
      exact ⟨set_getElem_fin_self _ _ _, outcome, rfl, fun e => dropChannel_engine ch s.eng e⟩
    · have stays : s.fallsIn k c = false := by
        rw [Bool.eq_false_iff]
        intro falls
        obtain ⟨serving, _, severe⟩ := fallsBy_iff.mp falls
        rcases still with faulted | report
        · rcases serving with e | e <;> exact absurd (faulted.symm.trans e) (by simp)
        · rcases severe with e | e <;> exact absurd (report.symm.trans e) (by simp)
      rw [findPresent_eq ch k s called]
      dsimp only
      rw [stays]
      exact ⟨rfl, rfl⟩

end Sys2Proof.Machine
end

section
/-! PROOF. An operation made for every open channel, as one update of each of them with its notices and records in the
order of the channels (R26, R135, R157); and the link state, O42. -/

namespace Sys2Proof.Machine

/-! ## One operation on many channels -/

/-- An operation on a channel gives its context this update, these notices and these records, and writes nothing that the
operation on another channel reads. `s` names what it reads of the state: the profiles, the settings and the clock. -/
structure Tends (s : State) (f : Chan → State → State) (update : Chan → Context → Context)
    (notices : Chan → Context → List NoticeBody) (reports : Chan → Context → List FaultReport) : Prop where
  frame : ∀ ch t, Supervised ch t (f ch t)
  chan : ∀ ch t c, t.profiles = s.profiles → t.chan[ch] = some c → (f ch t).chan = t.chan.set ch (some (update ch c))
  ctl : ∀ ch t c, t.profiles = s.profiles → t.chan[ch] = some c → (f ch t).ctl = (t.notifyAll (notices ch c)).ctl
  history : ∀ ch t c, t.profiles = s.profiles → t.chan[ch] = some c → (f ch t).history = t.historyAfter (reports ch c)

/-- What a list of channels makes of a table of the open ones. -/
def State.gather {α : Type} (s : State) (cs : List Chan) (g : Chan → Context → List α) : List α :=
  cs.flatMap fun ch => (s.chan[ch]).toList.flatMap (g ch)

section fold
variable {s : State} {f : Chan → State → State} {update : Chan → Context → Context}
  {notices : Chan → Context → List NoticeBody} {reports : Chan → Context → List FaultReport}

/-- Records offered after others are offered on top of them. -/
theorem historyAfter_congr {a b : State} (rs : List FaultReport) (history : a.history = b.history)
    (settings : a.settings = b.settings) (hw : a.hw = b.hw) : a.historyAfter rs = b.historyAfter rs := by
  rw [State.historyAfter, State.historyAfter, history, settings, hw]

theorem notifyAll_ctl_congr {a b : State} (bs : List NoticeBody) (ctl : a.ctl = b.ctl)
    (settings : a.settings = b.settings) (hw : a.hw = b.hw) : (a.notifyAll bs).ctl = (b.notifyAll bs).ctl := by
  rw [notifyAll_ctl, notifyAll_ctl, ctl, settings, hw]

theorem gather_congr {α : Type} {a b : State} {cs : List Chan} {g : Chan → Context → List α}
    (same : ∀ ch ∈ cs, a.chan[ch] = b.chan[ch]) : a.gather cs g = b.gather cs g :=
  List.flatMap_congr fun ch h => by rw [same ch h]

/-- The fold over channels each named once. -/
theorem Tends.foldl (h : Tends s f update notices reports) : ∀ (cs : List Chan) (t : State), cs.Nodup →
    t.profiles = s.profiles → (∀ ch ∈ cs, (t.chan[ch]).isSome) →
    (∀ ch : Chan, (cs.foldl (fun x d => f d x) t).chan[ch] =
      if ch ∈ cs then (t.chan[ch]).map (update ch) else t.chan[ch]) ∧
    (cs.foldl (fun x d => f d x) t).ctl = (t.notifyAll (t.gather cs notices)).ctl ∧
    (cs.foldl (fun x d => f d x) t).history = t.historyAfter (t.gather cs reports)
  | [], t, _, _, _ => ⟨fun _ => by simp, rfl, rfl⟩
  | d :: cs, t, once, profiles, called => by
    obtain ⟨fresh, once⟩ := List.nodup_cons.mp once
    obtain ⟨c, hc⟩ := Option.isSome_iff_exists.mp (called d List.mem_cons_self)
    have frame := h.frame d t
    have others : ∀ ch ∈ cs, (f d t).chan[ch] = t.chan[ch] := fun ch hch =>
      (frame.others ch fun e => fresh (e ▸ hch)).1
    obtain ⟨chan, ctl, history⟩ := h.foldl cs (f d t) once (frame.keeps.profiles.trans profiles)
      fun ch hch => by rw [others ch hch]; exact called ch (List.mem_cons_of_mem d hch)
    have settings := frame.keeps.settings
    have first : ∀ {α : Type} (g : Chan → Context → List α), t.gather (d :: cs) g = g d c ++ (f d t).gather cs g := by
      intro α g
      rw [gather_congr others, State.gather, List.flatMap_cons, hc, Option.toList_some, List.flatMap_singleton]
      rfl
    refine ⟨fun ch => ?_, ?_, ?_⟩
    · rw [List.foldl_cons, chan ch]
      by_cases same : ch = d
      · subst same
        rw [if_neg fresh, if_pos List.mem_cons_self, h.chan ch t c profiles hc, hc]
        exact set_getElem_fin_self _ _ _
      · rw [(frame.others ch same).1]
        simp [same]
    · rw [List.foldl_cons, ctl, first notices, notifyAll_append]
      exact notifyAll_ctl_congr _ (h.ctl d t c profiles hc) (by rw [settings, notifyAll_eq]) (by rw [frame.hw, notifyAll_eq])
    · rw [List.foldl_cons, history, first reports, historyAfter_append]
      exact historyAfter_congr _ (h.history d t c profiles hc) settings frame.hw

/-- What the open channels make is what all channels make, a FREE one nothing. -/
theorem gather_open {α : Type} (s : State) (g : Chan → Context → List α) :
    s.gather s.openChannels g = s.gather allChannels g := by
  rw [openChannels_eq]
  unfold State.gather
  induction allChannels with
  | nil => rfl
  | cons ch cs ih =>
    cases hc : s.chan[ch] with
    | none =>
      rw [List.filter_cons, if_neg (by rw [hc]; decide), ih, List.flatMap_cons, hc]
      rfl
    | some c => rw [List.filter_cons, if_pos (by rw [hc]; rfl), List.flatMap_cons, ih, List.flatMap_cons]

/-- A property that each operation keeps holds after the operation on every open channel. -/
theorem forEachOpen_induct {p : State → Prop} (step : ∀ ch t, p t → p (f ch t)) (base : p s) : p (s.forEachOpen f) := by
  unfold State.forEachOpen
  generalize s.openChannels = cs
  induction cs generalizing s with
  | nil => exact base
  | cons ch cs ih => exact ih (step ch s base)

/-- The frame of an operation on every open channel. -/
theorem forEachOpen_worked (frame : ∀ ch t, Supervised ch t (f ch t)) :
    Worked s (s.forEachOpen f) ∧ (s.forEachOpen f).link = s.link ∧ (s.forEachOpen f).eng.load = s.eng.load :=
  forEachOpen_induct (p := fun t => Worked s t ∧ t.link = s.link ∧ t.eng.load = s.eng.load)
    (fun ch t ⟨worked, link, load⟩ =>
      ⟨worked.trans (frame ch t).worked, (frame ch t).link.trans link, (frame ch t).load.trans load⟩)
    ⟨.refl s, rfl, rfl⟩

/-- The operation on every open channel, channel by channel, with its notices and records in ascending order. -/
theorem Tends.forEachOpen (h : Tends s f update notices reports) :
    (∀ ch : Chan, (s.forEachOpen f).chan[ch] = (s.chan[ch]).map (update ch)) ∧
    (s.forEachOpen f).ctl = (s.notifyAll (s.gather allChannels notices)).ctl ∧
    (s.forEachOpen f).history = s.historyAfter (s.gather allChannels reports) := by
  obtain ⟨chan, ctl, history⟩ := h.foldl s.openChannels s (nodup_openChannels s) rfl fun ch hch => (mem_openChannels s ch).mp hch
  refine ⟨fun ch => (chan ch).trans ?_, by rw [← gather_open]; exact ctl, by rw [← gather_open]; exact history⟩
  split
  · rfl
  · next free =>
    have none : s.chan[ch] = none := by
      rw [← Option.not_isSome_iff_eq_none]
      exact fun called => free ((mem_openChannels s ch).mpr called)
    rw [none]
    rfl

end fold

/-! ## Findings and absences in every open channel -/

theorem profileOf_congr {s t : State} (h : t.profiles = s.profiles) (c : Context) : t.profileOf c = s.profileOf c := by
  rw [State.profileOf, h, State.profileOf]

theorem foundIn_congr {s t : State} (profiles : t.profiles = s.profiles) (k : FaultKind) (c : Context) :
    t.foundIn k c = s.foundIn k c := by
  rw [State.foundIn, profileOf_congr profiles, State.foundIn]

theorem raisedBy_congr {s t : State} (profiles : t.profiles = s.profiles) (k : FaultKind) (ch : Chan) (c : Context) :
    t.raisedBy k ch c = s.raisedBy k ch c := by
  rw [State.raisedBy, profileOf_congr profiles, State.raisedBy]

theorem tends_findPresent (s : State) (k : FaultKind) : Tends s (fun ch x => x.findPresent ch k)
    (fun _ c => s.foundIn k c) (fun ch c => (s.raisedBy k ch c).map FaultReport.notice) (s.raisedBy k) where
  frame ch t := supervised_findPresent ch k t
  chan ch t c profiles h := by rw [findPresent_chan h, foundIn_congr profiles]
  ctl ch t c profiles h := by rw [findPresent_ctl h, raisedBy_congr profiles]
  history ch t c profiles h := by rw [findPresent_history h, raisedBy_congr profiles]

theorem tends_setAbsent (s : State) (k : FaultKind) : Tends s (fun ch x => x.setAbsent ch k)
    (fun _ c => c.absent k) (fun _ _ => []) fun _ _ => [] where
  frame ch t := supervised_setAbsent ch k t
  chan ch t c _ h := by rw [setAbsent_eq ch k t h]; rfl
  ctl ch t c _ h := by rw [setAbsent_eq ch k t h]; rfl
  history ch t c _ h := by rw [setAbsent_eq ch k t h]; rfl

theorem gather_raised (s : State) (k : FaultKind) : s.gather allChannels (s.raisedBy k) = s.raisedByAll k := rfl

theorem gather_map {α β : Type} (s : State) (cs : List Chan) (g : Chan → Context → List α) (e : α → β) :
    s.gather cs (fun ch c => (g ch c).map e) = (s.gather cs g).map e := by
  simp only [State.gather, List.map_flatMap]

theorem gather_nil {α : Type} (s : State) (cs : List Chan) : s.gather cs (fun _ _ => ([] : List α)) = [] := by
  simp [State.gather]

/-- A condition found present in every open channel. -/
theorem findPresentAll_eq (s : State) (k : FaultKind) :
    (∀ ch : Chan, (s.forEachOpen fun ch x => x.findPresent ch k).chan[ch] = (s.chan[ch]).map (s.foundIn k)) ∧
    (s.forEachOpen fun ch x => x.findPresent ch k).ctl
      = (s.notifyAll ((s.raisedByAll k).map FaultReport.notice)).ctl ∧
    (s.forEachOpen fun ch x => x.findPresent ch k).history = s.historyAfter (s.raisedByAll k) := by
  obtain ⟨chan, ctl, history⟩ := (tends_findPresent s k).forEachOpen
  rw [gather_map, gather_raised] at ctl
  exact ⟨chan, ctl, history⟩

/-- A condition set absent in every open channel. -/
theorem setAbsentAll_eq (s : State) (k : FaultKind) :
    (∀ ch : Chan, (s.forEachOpen fun ch x => x.setAbsent ch k).chan[ch] = (s.chan[ch]).map (Context.absent k)) ∧
    (s.forEachOpen fun ch x => x.setAbsent ch k).ctl = s.ctl ∧
    (s.forEachOpen fun ch x => x.setAbsent ch k).history = s.history ∧
    (s.forEachOpen fun ch x => x.setAbsent ch k).eng = s.eng := by
  obtain ⟨chan, ctl, history⟩ := (tends_setAbsent s k).forEachOpen
  rw [gather_nil] at ctl history
  exact ⟨chan, ctl, history, forEachOpen_induct (p := fun t => t.eng = s.eng)
    (fun ch t h => (modCtx_eng ch _ t).trans h) rfl⟩

/-! ## The link state -/

theorem start_of_head {lp : LinkPort} {ch : Chan} {more : List Chan} {sl : Slot} (up : lp.state = .up)
    (idle : lp.sending = none) (queue : lp.txQueue = ch :: more) (slot : lp.slots[ch] = some sl) :
    lp.start.sending = some ((7 + sl.frame.payload.length + 12) * 80) := by
  rw [start_sending, idle, queue]
  dsimp only
  rw [if_pos up, List.head?_cons, Option.bind_some, slot]
  rfl

theorem absent_eq (k : FaultKind) (c : Context) : c.absent k =
    if c.state = .closing then c else c.setFault k { c.fault k with present := false } := rfl

/-- The link port when the carrier is lost. -/
theorem lost_link (lp : LinkPort) : { lp.abandon.cutUnit with state := .down } = { lp with
    state := .down
    sending := none
    lastDelimiter := if lp.sending.isSome then .abortDelimiter else lp.lastDelimiter
    receiving := false
    errLength := if lp.receiving then min 65535 (lp.errLength + 1) else lp.errLength } := by
  rw [abandon_eq, LinkPort.cutUnit]
  dsimp only
  cases h : lp.receiving <;> rfl

/-- Settles O42. -/
theorem linkStateFollowsLine : Obligations.LinkStateFollowsLine := by
  intro s rest
  have lost : exec .carrierLost s = .next (if s.link.state = .down then s else s.linkDown) := by
    change Host.Outcome.next (if s.finish.link.state = .down then s.finish else s.finish.linkDown) = _
    rw [finish_of_rest_nil s rest]
  have gained : exec .carrierGained s = .next (if s.link.state = .down then s.linkUp else s) := by
    change Host.Outcome.next (if s.finish.link.state = .down then s.finish.linkUp else s.finish) = _
    rw [finish_of_rest_nil s rest]
  have paused : exec .pauseIndication s = .next (if s.link.state = .up then
      ({ s with link := { s.link with state := .paused } } : State).notify (.linkState .paused) else s) := by
    change Host.Outcome.next (if s.finish.link.state = .up then
      ({ s.finish with link := { s.finish.link with state := .paused } } : State).notify (.linkState .paused)
      else s.finish) = _
    rw [finish_of_rest_nil s rest]
  have resumed : exec .resumeIndication s = .next (if s.link.state = .paused then
      ({ s with link := { s.link with state := .up }.start } : State).notify (.linkState .up) else s) := by
    change Host.Outcome.next (if s.finish.link.state = .paused then
      ({ s.finish with link := { s.finish.link with state := .up }.start } : State).notify (.linkState .up)
      else s.finish) = _
    rw [finish_of_rest_nil s rest]
  refine ⟨fun down => ⟨?_, ?_, ?_⟩, fun up => ⟨?_, ?_, ?_⟩, fun pause => ⟨?_, ?_, ?_⟩, fun carrier => ?_, fun down => ?_⟩
  · rw [lost, if_pos down]
  · rw [paused, if_neg (by simp [down])]
  · rw [resumed, if_neg (by simp [down])]
  · rw [gained, if_neg (by simp [up])]
  · rw [resumed, if_neg (by simp [up])]
  · rw [paused, if_pos up]
  · rw [gained, if_neg (by simp [pause])]
  · rw [paused, if_neg (by simp [pause])]
  · rw [resumed, if_pos pause]
    exact ⟨_, rfl, start_state _, start_txQueue _, start_slots _,
      fun ch more sl idle queue slot => start_of_head rfl idle queue slot, rfl, rfl, rfl, rfl, rfl⟩
  · rw [lost, if_neg carrier]
    generalize hs : ({ s with link := { s.link.abandon.cutUnit with state := .down } } : State).notify
      (.linkState .down) = told
    have profiles : told.profiles = s.profiles := by rw [← hs]; rfl
    have reports : told.raisedByAll .link = s.raisedByAll .link := by rw [← hs]; rfl
    obtain ⟨chan, ctl, history⟩ := findPresentAll_eq told .link
    obtain ⟨⟨keeps, hw, due, _, _⟩, link, _⟩ :=
      forEachOpen_worked (s := told) (f := fun ch x => x.findPresent ch .link) fun ch t => supervised_findPresent ch .link t
    have run : s.linkDown = told.forEachOpen fun ch x => x.findPresent ch .link := by rw [← hs]; rfl
    rw [run]
    refine ⟨_, rfl, ?_, ?_, ?_, ?_, ?_, ?_, ?_, ?_, ?_, fun ch free => ?_, fun ch c called => ?_⟩
    · rw [link, ← hs]
      exact lost_link s.link
    · rw [ctl, reports, ← hs, notifyAll_ctl, notifyAll_ctl]
      rfl
    · rw [history, reports, ← hs]
      rfl
    · rw [hw, ← hs]
      rfl
    · rw [keeps.tagMap, ← hs]
      rfl
    · rw [keeps.profiles, profiles]
    · rw [keeps.settings, ← hs]
      rfl
    · rw [keeps.mode, ← hs]
      rfl
    · rw [due, ← hs]
      rfl
    · have same : told.chan = s.chan := by rw [← hs]; rfl
      rw [chan ch, same, free]
      rfl
    · have same : told.chan = s.chan := by rw [← hs]; rfl
      refine ⟨s.foundIn .link c, ?_, fun closing => found_of_closing closing, fun open_ => ?_⟩
      · rw [chan ch, same, called]
        exact congrArg some (foundIn_congr profiles .link c)
      · have touched : s.foundIn .link c = _ := found_touches
        refine ⟨found_present open_, found_judged open_, found_state open_, fun k hk => fault_found_other hk, ?_, ?_⟩
        · rw [touched]
        · rw [touched]
  · rw [gained, if_pos down]
    generalize hs : ({ s with link := { s.link with state := .up }.start } : State).notify (.linkState .up) = told
    obtain ⟨chan, ctl, history, eng⟩ := setAbsentAll_eq told .link
    obtain ⟨⟨keeps, hw, _, _, _⟩, link, _⟩ :=
      forEachOpen_worked (s := told) (f := fun ch x => x.setAbsent ch .link) fun ch t => supervised_setAbsent ch .link t
    have run : s.linkUp = told.forEachOpen fun ch x => x.setAbsent ch .link := by rw [← hs]; rfl
    have same : told.chan = s.chan := by rw [← hs]; rfl
    rw [run]
    refine ⟨_, rfl, ?_, ?_, ?_, fun ch more sl idle queue slot => ?_, ?_, ?_, ?_, ?_, ?_, ?_, ?_, ?_, fun ch free => ?_,
      fun ch c called => ?_⟩
    · rw [link, ← hs]
      exact start_state _
    · rw [link, ← hs]
      exact start_txQueue _
    · rw [link, ← hs]
      exact start_slots _
    · rw [link, ← hs]
      exact start_of_head rfl idle queue slot
    · rw [ctl, ← hs]
      rfl
    · rw [hw, ← hs]
      rfl
    · rw [keeps.tagMap, ← hs]
      rfl
    · rw [eng, ← hs]
      rfl
    · rw [history, ← hs]
      rfl
    · rw [keeps.profiles, ← hs]
      rfl
    · rw [keeps.settings, ← hs]
      rfl
    · rw [keeps.mode, ← hs]
      rfl
    · rw [chan ch, same, free]
      rfl
    · rw [chan ch, same, called]
      rfl

end Sys2Proof.Machine
end

section
/-! PROOF. A step, the state after reset, the load window, notices and records, and a unit's checks on the link (R21, R130,
R131, R137, R141, R161, R178): O1, O3, O36, O37, O38 and O43. -/

namespace Sys2Proof.Machine

/-! ## A step, and reset -/

/-- Settles O1. -/
theorem stepTakesFrontCommand : Obligations.StepTakesFrontCommand :=
  ⟨fun c rest s h => by rw [step, h], fun s h => by rw [step, h]⟩

/-- Settles O3: the values are those of `State.resetWith`, and `sound_reset` is the rest. -/
theorem hardwareResetValues : Obligations.HardwareResetValues := by
  have emptied : ∀ {α : Type} {n : Nat} (x : α) (i : Fin n), (Vector.replicate n x)[i] = x := fun x i => by simp
  refine ⟨fun start law line r hr => ?_, fun start law line s => ⟨_, rfl, fun ch => emptied _ ch, fun g => emptied _ g,
    fun n => ⟨emptied _ n, emptied _ n⟩, rfl, rfl, rfl, rfl, rfl, rfl, fun h => ?_, rfl, fun e => emptied _ e,
    fun b => emptied _ b, rfl, rfl, rfl, rfl, rfl, rfl, rfl, fun ch => emptied _ ch, rfl, rfl, fun ch => emptied _ ch,
    fun sending => if_pos sending, rfl, fun n => emptied _ n, ?_, rfl, rfl, rfl, ?_⟩⟩
  · rw [hr]
    exact sound_reset start law line .none [] 0
  · have record : (State.resetWith start law line).hw.records[h]
        = ⟨true, if law then .muLaw else .aLaw, Vector.replicate 32 false⟩ := emptied _ h
    change ((State.resetWith start law line).hw.records[h]).enabled = true ∧ _
    rw [record]
    exact ⟨rfl, rfl, fun n => emptied false n⟩
  · cases line <;> rfl
  · exact sound_reset start law line _ s.pending s.freeCount

/-! ## The load monitor -/

/-- Settles O36. -/
theorem loadWindowAndMissesMoveLoadState : Obligations.LoadWindowAndMissesMoveLoadState := by
  refine ⟨?_, ?_⟩
  · intro s rest raised left
    change Host.Outcome.next (s.finish.takeIfDue .loadWindowEnd) = _
    rw [finish_of_rest_nil s rest, takeIfDue_of_due _ s raised]
    change Host.Outcome.next left.loadWindowEnd = _
    congr 1
    by_cases recovers : s.eng.load.state = .overloaded ∧ s.eng.load.misses = 0
    · have both : (decide (s.eng.load.state = .overloaded) && decide (s.eng.load.misses = 0)) = true := by simp [recovers]
      have loaded : (decide (left.eng.load.state = .overloaded) && decide (left.eng.load.misses = 0)) = true := both
      rw [if_pos recovers, State.loadWindowEnd, loaded]
      rfl
    · have notBoth : (decide (s.eng.load.state = .overloaded) && decide (s.eng.load.misses = 0)) = false := by
        simpa using recovers
      have loaded : (decide (left.eng.load.state = .overloaded) && decide (left.eng.load.misses = 0)) = false := notBoth
      rw [if_neg recovers, State.loadWindowEnd, loaded]
      rfl
  · intro s t ht counted
    rw [ht, State.loadMiss]
    simp only [Bool.and_eq_true, decide_eq_true_eq]
    rfl

/-! ## Notices -/

theorem isState_iff (b : NoticeBody) : b.isState = true ↔ b.cls = 2 ∨ b.cls = 3 ∨ b.cls = 5 := by
  cases b <;> simp [NoticeBody.isState, NoticeBody.cls]

theorem getLsbD_flagBit (cls : Fin 7) {i : Nat} (h : i < 8) : (flagBit cls).getLsbD i = decide (i = cls.val) := by
  have all : ∀ cls : Fin 7, ∀ i : Fin 8, (flagBit cls).getLsbD i.val = decide (i.val = cls.val) := by decide
  exact all cls ⟨i, h⟩

/-- What is left of the queue before a notice of this body is inserted (R178 step 3). -/
def keptBefore (b : NoticeBody) (q : List Notice) : List Notice :=
  if b.cls = 2 ∨ b.cls = 3 ∨ b.cls = 5 then q.filter fun m => m.body.cls ≠ b.cls else q

theorem keptBefore_eq (b : NoticeBody) (q : List Notice) :
    (if b.isState then q.filter fun m => m.body.cls ≠ b.cls else q) = keptBefore b q := by
  rw [keptBefore]
  exact if_congr (isState_iff b) rfl rfl

section enqueue
variable {n : Notice} {q : List Notice}

theorem enqueueNotice_of_zero (h : n.level = 0) : enqueueNotice n q = q := if_pos h

theorem enqueueNotice_of_room (h : n.level ≠ 0) (room : (keptBefore n.body q).length < 32) :
    enqueueNotice n q = insertNotice n (keptBefore n.body q) := by
  rw [enqueueNotice, if_neg h, keptBefore_eq]
  exact if_pos room

theorem enqueueNotice_of_outranked (h : n.level ≠ 0) (full : 32 ≤ (keptBefore n.body q).length)
    (low : n.level ≤ lowestLevel (keptBefore n.body q)) : enqueueNotice n q = keptBefore n.body q := by
  rw [enqueueNotice, if_neg h, keptBefore_eq]
  dsimp only
  rw [if_neg (not_lt.mpr full), if_pos low]

theorem enqueueNotice_of_outranking (h : n.level ≠ 0) (full : 32 ≤ (keptBefore n.body q).length)
    (high : lowestLevel (keptBefore n.body q) < n.level) :
    enqueueNotice n q = insertNotice n (dropOldestLowest (keptBefore n.body q)) := by
  rw [enqueueNotice, if_neg h, keptBefore_eq]
  dsimp only
  rw [if_neg (not_lt.mpr full), if_neg (not_le.mpr high)]

end enqueue

theorem levels_keptBefore {b : NoticeBody} {q : List Notice} (h : ∀ m ∈ q, m.level ≤ 3) :
    ∀ m ∈ keptBefore b q, m.level ≤ 3 := by
  intro m hm
  rw [keptBefore] at hm
  split at hm
  · exact h m (List.mem_of_mem_filter hm)
  · exact h m hm

/-- The oldest notice of the lowest level is the one that leaves (R178 step 4). -/
theorem dropOldestLowest_split {q : List Notice} (some : q ≠ []) (levels : ∀ m ∈ q, m.level ≤ 3) :
    ∃ older m newer, q = older ++ m :: newer ∧ (∀ x ∈ older, m.level < x.level) ∧ (∀ x ∈ newer, m.level ≤ x.level) ∧
      dropOldestLowest q = older ++ newer := by
  obtain ⟨x, hx, lowest⟩ := exists_lowest some levels
  obtain ⟨m, older, newer, before, at_, cut, dropped⟩ :=
    List.exists_of_eraseP (p := fun n => n.level = lowestLevel q) hx (by simpa using lowest)
  have level : m.level = lowestLevel q := by simpa using at_
  refine ⟨older, m, newer, cut, fun y hy => ?_, fun y hy => ?_, dropped⟩
  · have least := lowestLevel_le (q := q) (m := y) (by rw [cut]; exact List.mem_append_left _ hy)
    have other : y.level ≠ lowestLevel q := by simpa using before y hy
    omega
  · have least := lowestLevel_le (q := q) (m := y) (by rw [cut]; exact List.mem_append_right _ (List.mem_cons_of_mem m hy))
    omega

/-- An idle transmitter takes a waiting answer, or else the head notice; a busy one goes on (R177). -/
theorem choose_cases (ctl : ControlLine) :
    (ctl.tx ≠ .idle → ctl.choose.tx = ctl.tx ∧ ctl.choose.notices = ctl.notices) ∧
    (ctl.tx = .idle → ctl.answer.isSome → ctl.choose.tx = .answer ∧ ctl.choose.notices = ctl.notices) ∧
    (ctl.tx = .idle → ctl.answer = none → (ctl.notices = [] → ctl.choose.tx = .idle ∧ ctl.choose.notices = []) ∧
      ∀ m more, ctl.notices = m :: more → ctl.choose.tx = .notice m ∧ ctl.choose.notices = more) := by
  obtain ⟨rx, buffer, overrun, proc, answer, notices, tx, flags, newLine⟩ := ctl
  refine ⟨fun busy => ?_, fun idle full => ?_, fun idle free => ⟨fun empty => ?_, fun m more head => ?_⟩⟩
  · cases tx with
    | idle => exact absurd rfl busy
    | answer => exact ⟨rfl, rfl⟩
    | notice n => exact ⟨rfl, rfl⟩
  · obtain ⟨a, rfl⟩ := Option.isSome_iff_exists.mp full
    subst idle
    exact ⟨rfl, rfl⟩
  · subst idle free empty
    exact ⟨rfl, rfl⟩
  · subst idle free head
    exact ⟨rfl, rfl⟩

theorem storeRecord_of_room {style : HistoryStyle} (kept : style ≠ .off) (r : HistoryRecord) {h : List HistoryRecord}
    (room : h.length < 32) : storeRecord style r h = h ++ [r] := by
  cases style with
  | wrap => exact if_pos room
  | keepFirst => exact if_pos room
  | off => exact absurd rfl kept

/-- Settles O37. -/
theorem noticeQueueAndHistory : Obligations.NoticeQueueAndHistory := by
  refine ⟨fun s t b levels ht => ?_, fun s t ch k cls ev ht => ?_⟩
  · intro level n isState kept inserted
    subst ht
    have generated : (s.notify b).ctl =
      ({ s.ctl with flags := s.ctl.flags ||| flagBit b.cls, notices := enqueueNotice n s.ctl.notices } : ControlLine).choose :=
      rfl
    have touched := choose_touches { s.ctl with
      flags := s.ctl.flags ||| flagBit b.cls, notices := enqueueNotice n s.ctl.notices }
    obtain ⟨busy, answering, free⟩ := choose_cases { s.ctl with
      flags := s.ctl.flags ||| flagBit b.cls, notices := enqueueNotice n s.ctl.notices }
    refine ⟨?_, fun i hi => ?_, enqueueNotice n s.ctl.notices, fun zero => enqueueNotice_of_zero zero,
      fun queued => ⟨fun room => ?_, fun full low => ?_, fun full high => ?_⟩, ?_, ?_, ?_⟩
    · have ctl : (s.notify b).ctl = { s.ctl with
          flags := (s.notify b).ctl.flags, notices := (s.notify b).ctl.notices, tx := (s.notify b).ctl.tx } := by
        rw [generated, touched]
      calc s.notify b = { s with ctl := (s.notify b).ctl } := rfl
        _ = _ := by rw [ctl]
    · rw [notify_ctl, generate_flags, BitVec.getLsbD_or, getLsbD_flagBit _ hi]
    · rw [enqueueNotice_of_room (n := n) (q := s.ctl.notices) queued room]
      exact insertNotice_split n
    · refine enqueueNotice_of_outranked queued full ?_
      obtain ⟨m, hm, lowest⟩ := exists_lowest (q := keptBefore b s.ctl.notices)
        (List.ne_nil_of_length_pos (lt_of_lt_of_le (by decide) full)) (levels_keptBefore levels)
      rw [← lowest]
      exact low m hm
    · obtain ⟨m, hm, below⟩ := high
      have outranks : lowestLevel (keptBefore b s.ctl.notices) < level := (lowestLevel_le hm).trans_lt below
      obtain ⟨older, m, newer, cut, strict, weak, dropped⟩ := dropOldestLowest_split (q := keptBefore b s.ctl.notices)
        (List.ne_nil_of_mem hm) (levels_keptBefore levels)
      refine ⟨older, m, newer, cut, strict, weak, ?_⟩
      rw [enqueueNotice_of_outranking (n := n) (q := s.ctl.notices) queued full outranks]
      exact dropped ▸ insertNotice_split n
    · exact busy
    · exact answering
    · exact free
  · intro r
    subst ht
    refine ⟨rfl, fun off => ?_, fun on room => storeRecord_of_room on r room, fun wrap full => ?_, fun first full => ?_⟩
    · change storeRecord s.settings.historyStyle r s.history = _
      rw [off]
      rfl
    · change storeRecord s.settings.historyStyle r s.history = _
      rw [wrap, storeRecord, if_neg (by omega), full, ← List.drop_one]
    · change storeRecord s.settings.historyStyle r s.history = _
      rw [first, storeRecord, if_neg (by omega)]

/-! ## The line of the link port -/

/-- Settles O43. -/
theorem linkLineEvents : Obligations.LinkLineEvents := by
  intro s rest
  have ended : exec .linkTransmissionEnd s = .next { s with link := s.link.endTransmission } := by
    change Host.Outcome.next { s.finish with link := s.finish.link.endTransmission } = _
    rw [finish_of_rest_nil s rest]
  refine ⟨fun nothing => ?_, fun ns ch more sending queue => ?_, ?_, ?_⟩
  · rw [ended, LinkPort.endTransmission]
    split
    · next ns ch more hs hq =>
      rcases nothing with idle | empty
      · rw [idle] at hs
        cases hs
      · rw [empty] at hq
        cases hq
    · rfl
  · generalize hlp : ({ s.link with
      sending := none, lastDelimiter := .endDelimiter, slots := s.link.slots.set ch none, txQueue := more } : LinkPort) = lp
    have next : s.link.endTransmission = lp.start := by rw [LinkPort.endTransmission, sending, queue, ← hlp]
    have quiet : lp.sending = none := by rw [← hlp]
    refine ⟨_, by rw [ended, next], ?_, fun stops => ?_, fun up d more' sl cut other slot => ?_⟩
    · rw [start_touches, ← hlp]
    · change lp.start.sending = none
      rw [start_sending, quiet]
      dsimp only
      rcases stops with down | empty
      · rw [if_neg (by rw [← hlp]; exact down)]
      · rw [show lp.txQueue = [] by rw [← hlp]; exact empty]
        exact ite_self _
    · refine start_of_head (by rw [← hlp]; exact up) quiet (by rw [← hlp]; exact cut) ?_
      rw [← hlp]
      exact (set_getElem_fin_other s.link.slots ch d none other).trans slot
  · change Host.Outcome.next (if s.finish.link.state = .down then s.finish else
      { s.finish with link := { s.finish.link with receiving := true } }) = _
    rw [finish_of_rest_nil s rest]
  · change Host.Outcome.next { s.finish with link := s.finish.link.cutUnit } = _
    rw [finish_of_rest_nil s rest, LinkPort.cutUnit]
    split <;> rfl

/-! ## The checks of a unit -/

theorem kindOfCode_of_other {n : Nat} (h : n = 0 ∨ 4 < n) : kindOfCode n = none := by
  unfold kindOfCode
  split <;> first | omega | rfl

theorem exists_kind {n : Nat} (low : 1 ≤ n) (high : n ≤ 4) : ∃ k, kindOfCode n = some k ∧ k.code = n := by
  interval_cases n <;> exact ⟨_, rfl, rfl⟩

theorem parseFrame_of_short {bytes : List Byte} (h : bytes.length < 7) : parseFrame bytes = none := by
  unfold parseFrame
  split
  · simp only [List.length_cons] at h
    omega
  · rfl

/-- The payload length that a kind and a rate code call for, as the table of R137 step 4 has it. -/
theorem payloadLength_of_codes {k : FrameKind} {rate : Nat} (coded : rate < 4) (named : ¬ (k.code = 1 ∧ rate = 0)) :
    payloadLength k (if k = .speech then rateOfCode rate else none) = some
      (if k.code = 1 then (if rate = 1 then 82 else if rate = 2 then 62 else 42) else if k.code = 2 then 1 else 0) ∧
    rateCode (if k = .speech then rateOfCode rate else none) = if k.code = 1 then rate else 0 := by
  cases k with
  | speech =>
    have nonzero : rate ≠ 0 := fun zero => named ⟨rfl, zero⟩
    interval_cases rate <;> first | exact absurd rfl nonzero | exact ⟨rfl, rfl⟩
  | sid => exact ⟨rfl, rfl⟩
  | noData => exact ⟨rfl, rfl⟩
  | endCall => exact ⟨rfl, rfl⟩

section unit
variable {b0 b1 b2 b3 b4 b5 b6 : Byte} {payload : List Byte}

theorem checkUnit_of_length (h : payload.length ≠ b6.toNat) :
    checkUnit (b0 :: b1 :: b2 :: b3 :: b4 :: b5 :: b6 :: payload) = .error .length := by
  simp only [checkUnit, parseFrame]
  rw [if_pos h]

theorem checkUnit_of_kind (h : payload.length = b6.toNat) (unknown : kindOfCode (b0.toNat / 16) = none) :
    checkUnit (b0 :: b1 :: b2 :: b3 :: b4 :: b5 :: b6 :: payload) = .error .format := by
  simp only [checkUnit, parseFrame, unknown]
  rw [if_neg (not_not.mpr h)]

theorem checkUnit_of_rate (h : payload.length = b6.toNat) {k : FrameKind} (kind : kindOfCode (b0.toNat / 16) = some k)
    (unknown : payloadLength k (if k = .speech then rateOfCode (b3.toNat / 64) else none) = none) :
    checkUnit (b0 :: b1 :: b2 :: b3 :: b4 :: b5 :: b6 :: payload) = .error .format := by
  simp only [checkUnit, parseFrame, kind, unknown]
  rw [if_neg (not_not.mpr h)]

theorem checkUnit_of_payload (h : payload.length = b6.toNat) {k : FrameKind} (kind : kindOfCode (b0.toNat / 16) = some k)
    {n : Nat} (called : payloadLength k (if k = .speech then rateOfCode (b3.toNat / 64) else none) = some n)
    (wrong : b6.toNat ≠ n) : checkUnit (b0 :: b1 :: b2 :: b3 :: b4 :: b5 :: b6 :: payload) = .error .length := by
  simp only [checkUnit, parseFrame, kind, called]
  rw [if_neg (not_not.mpr h), if_pos wrong]

theorem checkUnit_of_good (h : payload.length = b6.toNat) {k : FrameKind} (kind : kindOfCode (b0.toNat / 16) = some k)
    {n : Nat} (called : payloadLength k (if k = .speech then rateOfCode (b3.toNat / 64) else none) = some n)
    (right : b6.toNat = n) : checkUnit (b0 :: b1 :: b2 :: b3 :: b4 :: b5 :: b6 :: payload) =
      .ok ({ kind := b0.toNat / 16
             tag := Fin.ofNat 4096 (b0.toNat % 16 * 256 + b1.toNat)
             seq := b2
             rate := b3.toNat / 64
             rateReq := b3.toNat / 16 % 4
             token := Fin.ofNat 4 (b3.toNat / 4)
             echo := Fin.ofNat 4 b3.toNat
             dir := b4.toNat
             amount := b5.toNat
             length := b6.toNat
             payload := payload },
           ⟨b2, k, if k = .speech then rateOfCode (b3.toNat / 64) else none, payload⟩) := by
  simp only [checkUnit, parseFrame, kind, called]
  rw [if_neg (not_not.mpr h), if_neg (not_not.mpr right)]

end unit

/-- A unit of at least its header, byte by byte. -/
theorem exists_header {bytes : List Byte} (h : 7 ≤ bytes.length) :
    ∃ b0 b1 b2 b3 b4 b5 b6 payload, bytes = b0 :: b1 :: b2 :: b3 :: b4 :: b5 :: b6 :: payload := by
  match bytes, h with
  | b0 :: b1 :: b2 :: b3 :: b4 :: b5 :: b6 :: payload, _ => exact ⟨b0, b1, b2, b3, b4, b5, b6, payload, rfl⟩

/-- A checked arrival that fails raises its counter and nothing else. -/
theorem takeUnit_of_error {bytes : List Byte} {s : State} {e : LinkError}
    (h : ({ s with link := { s.link with receiving := false } } : State).checkArrival bytes = .error e) :
    s.takeUnit bytes = { s with link := ({ s.link with receiving := false } : LinkPort).countError e } := by
  rw [State.takeUnit, h]

theorem exec_linkFrameArrival {bytes : List Byte} {s : State} (rest : s.rest = []) (up : s.link.state ≠ .down) :
    exec (.linkFrameArrival bytes) s = .next (s.takeUnit bytes) := by
  change Host.Outcome.next (if s.finish.link.state = .down then s.finish else s.finish.takeUnit bytes) = _
  rw [finish_of_rest_nil s rest, if_neg up]

/-- The checks of a unit alone, of any bytes (R137 steps 1 to 4, R182). -/
theorem unitChecks (bytes : List Byte) :
    let b := fun i => (bytes.getD i 0).toNat
    let kind := b 0 / 16
    let rate := b 3 / 64
    let want := if kind = 1 then (if rate = 1 then 82 else if rate = 2 then 62 else 42) else if kind = 2 then 1 else 0
    (bytes.length < 7 ∨ bytes.length ≠ 7 + b 6 → checkUnit bytes = .error .length) ∧
    (bytes.length = 7 + b 6 → kind = 0 ∨ 4 < kind → checkUnit bytes = .error .format) ∧
    (bytes.length = 7 + b 6 → kind = 1 → rate = 0 → checkUnit bytes = .error .format) ∧
    (bytes.length = 7 + b 6 → 1 ≤ kind → kind ≤ 4 → ¬ (kind = 1 ∧ rate = 0) → b 6 ≠ want →
      checkUnit bytes = .error .length) ∧
    (bytes.length = 7 + b 6 → 1 ≤ kind → kind ≤ 4 → ¬ (kind = 1 ∧ rate = 0) → b 6 = want →
      ∃ r e, checkUnit bytes = .ok (r, e) ∧ r.tag.val = b 0 % 16 * 256 + b 1 ∧ e.seq.toNat = b 2 ∧
        e.kind.code = kind ∧ rateCode e.rate = (if kind = 1 then rate else 0) ∧ e.payload = bytes.drop 7 ∧
        r.rateReq = b 3 / 16 % 4 ∧ r.token.val = b 3 / 4 % 4 ∧ r.echo.val = b 3 % 4 ∧ r.dir = b 4 ∧ r.amount = b 5) := by
  intro b kind rate want
  by_cases header : 7 ≤ bytes.length
  · obtain ⟨b0, b1, b2, b3, b4, b5, b6, payload, rfl⟩ := exists_header header
    have whole : (b0 :: b1 :: b2 :: b3 :: b4 :: b5 :: b6 :: payload).length = 7 + b 6 ↔ payload.length = b6.toNat := by
      simp only [List.length_cons]
      change payload.length + 1 + 1 + 1 + 1 + 1 + 1 + 1 = 7 + b6.toNat ↔ _
      omega
    have coded : rate < 4 := by
      have := b3.isLt
      change b3.toNat / 64 < 4
      omega
    refine ⟨fun bad => checkUnit_of_length fun same => ?_, fun fits unknown => ?_, fun fits speech zero => ?_,
      fun fits low high named wrong => ?_, fun fits low high named right => ?_⟩
    · exact bad.elim (fun short => absurd header (not_le.mpr short)) fun other => other (whole.mpr same)
    · exact checkUnit_of_kind (whole.mp fits) (kindOfCode_of_other unknown)
    · refine checkUnit_of_rate (whole.mp fits) (k := .speech) ?_ ?_
      · rw [show b0.toNat / 16 = 1 from speech]
        rfl
      · rw [show b3.toNat / 64 = 0 from zero]
        rfl
    · obtain ⟨k, known, code⟩ := exists_kind low high
      obtain ⟨length, _⟩ := payloadLength_of_codes (k := k) coded (by rw [code]; exact named)
      rw [code] at length
      exact checkUnit_of_payload (whole.mp fits) known length wrong
    · obtain ⟨k, known, code⟩ := exists_kind low high
      obtain ⟨length, coded'⟩ := payloadLength_of_codes (k := k) coded (by rw [code]; exact named)
      rw [code] at length coded'
      refine ⟨_, _, checkUnit_of_good (whole.mp fits) known length right, ?_, rfl, code, coded', rfl, rfl, rfl, rfl, rfl, rfl⟩
      change (b0.toNat % 16 * 256 + b1.toNat) % 4096 = b0.toNat % 16 * 256 + b1.toNat
      have := b1.isLt
      omega
  · have short : bytes.length < 7 := not_le.mp header
    refine ⟨fun _ => by rw [checkUnit, parseFrame_of_short short], ?_, ?_, ?_, ?_⟩ <;> intro fits <;> omega

/-- Settles O38. -/
theorem unitChecksAndCounters : Obligations.UnitChecksAndCounters := by
  refine ⟨unitChecks, fun s bytes rest => ?_⟩
  intro ended
  refine ⟨fun down => ?_, fun up => ⟨fun error => ?_, fun error => ?_, fun r e good => ⟨fun unknown => ?_,
    fun ch c known called closing => ?_⟩⟩⟩
  · change Host.Outcome.next (if s.finish.link.state = .down then s.finish else s.finish.takeUnit bytes) = _
    rw [finish_of_rest_nil s rest, if_pos down]
  · rw [exec_linkFrameArrival rest up, takeUnit_of_error (e := .length) (by rw [State.checkArrival, error])]
    rfl
  · rw [exec_linkFrameArrival rest up, takeUnit_of_error (e := .format) (by rw [State.checkArrival, error])]
    rfl
  · rw [exec_linkFrameArrival rest up, takeUnit_of_error (e := .unknownTag)]
    · rfl
    · rw [State.checkArrival, good]
      dsimp only
      rw [unknown]
  · rw [exec_linkFrameArrival rest up, takeUnit_of_error (e := .notAccepting)]
    · rfl
    · rw [State.checkArrival, good]
      dsimp only
      rw [known]
      dsimp only
      rw [called]
      exact if_pos closing

end Sys2Proof.Machine
end

section
/-! PROOF. CLEAR FAULTS (R156 to R158): what it makes of a channel in the words of the statements, on one channel and on
every open one, and O56. -/

namespace Sys2Proof.Machine

/-! ## Notices and the order buffer -/

/-- Choosing does not read the buffer, the receiver or the processor. -/
theorem generate_with_buffer (n : Notice) (q : List Message) (ctl : ControlLine) :
    ({ ctl with buffer := q } : ControlLine).generate n = { ctl.generate n with buffer := q } := by
  obtain ⟨rx, buffer, overrun, proc, answer, notices, tx, flags, newLine⟩ := ctl
  unfold ControlLine.generate ControlLine.choose
  cases tx with
  | idle =>
    dsimp only
    cases answer with
    | some a => rfl
    | none => cases enqueueNotice n notices <;> rfl
  | answer => rfl
  | notice m => rfl

theorem tell_with_buffer (levels : Vector Nat 7) (cycle : BitVec 32) (q : List Message) : ∀ (bs : List NoticeBody)
    (ctl : ControlLine), ({ ctl with buffer := q } : ControlLine).tell levels cycle bs
      = { ctl.tell levels cycle bs with buffer := q }
  | [], _ => rfl
  | b :: bs, ctl => by
    change (({ ctl with buffer := q } : ControlLine).generate ⟨levels[b.cls], cycle, b⟩).tell levels cycle bs = _
    rw [generate_with_buffer, tell_with_buffer levels cycle q bs]
    rfl

/-- Notices generated after an order has been taken are those generated before it. -/
theorem notifyAll_takeOrder (bs : List NoticeBody) (s : State) :
    (s.takeOrder.notifyAll bs).ctl = { (s.notifyAll bs).ctl with buffer := s.ctl.buffer.tail } := by
  rw [notifyAll_ctl, notifyAll_ctl]
  exact tell_with_buffer _ _ _ bs s.ctl

/-! ## One channel cleared -/

/-- The context of a channel after CLEAR FAULTS (R156, R158). -/
def Context.afterClear (c : Context) : Context := c.clearedAbsent.recoveredIfClear

theorem clears_iff (r : FaultRecord) : r.clears = true ↔ (r.state = .latched ∨ r.state = .reported) ∧ r.present = false := by
  simp [FaultRecord.clears]

theorem clearedIfAbsent_eq (r : FaultRecord) : r.clearedIfAbsent =
    if (r.state = .latched ∨ r.state = .reported) ∧ r.present = false
    then { r with state := .none, retryCount := 0, captured := .none } else r :=
  if_congr (clears_iff r) rfl rfl

theorem fault_recoveredIfClear (c : Context) (k : FaultKind) : c.recoveredIfClear.fault k = c.fault k := by
  unfold Context.recoveredIfClear
  split <;> rfl

theorem faults_recoveredIfClear (c : Context) : c.recoveredIfClear.faults = c.faults := by
  unfold Context.recoveredIfClear
  split <;> rfl

theorem heldByFault_recoveredIfClear (c : Context) : c.recoveredIfClear.heldByFault = c.heldByFault := by
  unfold Context.heldByFault
  simp only [fault_recoveredIfClear]

theorem clearedAbsent_touches (c : Context) : c.clearedAbsent = { c with faults := c.clearedAbsent.faults } :=
  tended_touches _ c _

theorem cleared_afterClear (c : Context) : Cleared c c.afterClear := by
  have touched := clearedAbsent_touches c
  have state : c.clearedAbsent.state = c.state := tended_state _ c _
  have held : c.afterClear.heldByFault = c.clearedAbsent.heldByFault := heldByFault_recoveredIfClear _
  refine ⟨fun k => (fault_recoveredIfClear _ k).trans ((fault_clearedAbsent c k).trans (clearedIfAbsent_eq _)), fun ⟨faulted, free⟩ => ?_, fun stays => ?_⟩
  · have recovers : c.clearedAbsent.recovers = true := (recovers_iff _).mpr ⟨state.trans faulted, held.symm.trans free⟩
    rw [Context.afterClear, Context.recoveredIfClear, if_pos recovers]
    conv_lhs => rw [Context.recovered, touched]
    rfl
  · have stays' : c.clearedAbsent.recovers ≠ true := fun recovers => by
      obtain ⟨faulted, free⟩ := (recovers_iff _).mp recovers
      rcases stays with other | held'
      · exact other (state.symm.trans faulted)
      · rw [held, free] at held'
        cases held'
    rw [Context.afterClear, Context.recoveredIfClear, if_neg stays']
    exact touched

theorem clearingReports_eq (ch : Chan) (c : Context) : c.clearingReports ch = c.clearReports ch := by
  have split : ∀ ks : List FaultKind, ks.flatMap (fun k => clearingReports ch k (c.fault k)) =
      (ks.filter fun k => (c.fault k).clears).map fun k => ⟨ch, k, (c.fault k).captured.cls, .cleared⟩ := by
    intro ks
    induction ks with
    | nil => rfl
    | cons k ks ih =>
      rw [List.flatMap_cons, ih, clearingReports, List.filter_cons]
      split <;> rfl
  exact split allKinds

theorem recoveryNotices_clear (ch : Chan) (c : Context) : recoveryNotices ch c.clearedAbsent =
    if c.state = .faulted ∧ c.afterClear.heldByFault = false ∧ c.started = true then [.callActive ch] else [] := by
  have state : c.clearedAbsent.state = c.state := tended_state _ c _
  have started : c.clearedAbsent.started = c.started := tended_started _ c _
  have held : c.afterClear.heldByFault = c.clearedAbsent.heldByFault := heldByFault_recoveredIfClear _
  rw [recoveryNotices, held, started]
  refine if_congr ?_ rfl rfl
  rw [Bool.and_eq_true, recovers_iff, state, and_assoc]

/-- CLEAR FAULTS of a channel as one update, with its notices and records. -/
theorem clearChannel_eq_notices (ch : Chan) (s : State) {c : Context} (h : s.chan[ch] = some c) :
    s.clearChannel ch = { s with
      chan := s.chan.set ch (some c.afterClear)
      ctl := (s.notifyAll (clearNotices ch c c.afterClear)).ctl
      history := s.historyAfter (c.clearReports ch) } := by
  rw [clearChannel_eq ch s h, clearNotices, clearingReports_eq, recoveryNotices_clear, notifyAll_append, notifyAll_eq _ (s.reported _),
    notifyAll_eq _ (s.notifyAll _), notifyAll_eq _ s]
  rfl

theorem clearChannel_of_free (ch : Chan) (s : State) (h : s.chan[ch] = none) : s.clearChannel ch = s := by
  have one : ∀ k, State.clearIfAbsent ch s k = s := fun k => by rw [State.clearIfAbsent, h]
  have all : ∀ ks : List FaultKind, ks.foldl (State.clearIfAbsent ch) s = s := fun ks => by
    induction ks with
    | nil => rfl
    | cons k ks ih => rw [List.foldl_cons, one, ih]
  rw [State.clearChannel, all, State.recoverIfClear, h]

theorem clearChannel_eng (ch : Chan) (s : State) : (s.clearChannel ch).eng = s.eng := by
  cases h : s.chan[ch] with
  | none => rw [clearChannel_of_free ch s h]
  | some c => rw [clearChannel_eq_notices ch s h]

theorem tends_clearChannel (s : State) : Tends s State.clearChannel (fun _ c => c.afterClear)
    (fun ch c => clearNotices ch c c.afterClear) Context.clearReports where
  frame := supervised_clearChannel
  chan ch t c _ h := by rw [clearChannel_eq_notices ch t h]
  ctl ch t c _ h := by rw [clearChannel_eq_notices ch t h]
  history ch t c _ h := by rw [clearChannel_eq_notices ch t h]

/-! ## The kinds still held -/

theorem mem_stillHeld (c : Context) (k : FaultKind) : k ∈ c.stillHeld ↔ c.Holds k := by
  simp [Context.stillHeld, Context.Holds, mem_allKinds]

theorem stillHeld_isEmpty (c : Context) : c.stillHeld.isEmpty = true ↔ ∀ k, ¬ c.Holds k := by
  rw [List.isEmpty_iff, List.eq_nil_iff_forall_not_mem]
  exact forall_congr' fun k => not_congr (mem_stillHeld c k)

theorem mem_state_stillHeld (s : State) (ch : Chan) (k : FaultKind) :
    k ∈ s.stillHeld ch ↔ ∃ c, s.chan[ch] = some c ∧ c.Holds k := by
  rw [State.stillHeld]
  cases h : s.chan[ch] with
  | none => simp
  | some c => simp [mem_stillHeld]

theorem getLsbD_foldl_mask (ks : List FaultKind) {i : Nat} (h : i < 8) : ∀ (all : List FaultKind) (m : Byte),
    (all.foldl (fun m k => if ks.contains k then m ||| (1#8 <<< k.index.val) else m) m).getLsbD i
      = (m.getLsbD i || all.any fun k => ks.contains k && decide (i = k.index.val))
  | [], m => by simp
  | k :: all, m => by
    rw [List.foldl_cons, getLsbD_foldl_mask ks h all, List.any_cons, ← Bool.or_assoc]
    congr 1
    split
    · next held => rw [held, Bool.true_and, BitVec.getLsbD_or, ← getLsbD_flagBit k.index h, flagBit]
    · next other => rw [Bool.eq_false_iff.mpr other, Bool.false_and, Bool.or_false]

/-- Bit 7 of a mask of kinds is clear. -/
theorem kindMask_bit7 (ks : List FaultKind) : (kindMask ks).getLsbD 7 = false := by
  rw [kindMask, getLsbD_foldl_mask ks (by decide), BitVec.getLsbD_zero, Bool.false_or, List.any_eq_false]
  intro k _ both
  rw [Bool.and_eq_true, decide_eq_true_eq] at both
  have := k.index.isLt
  omega

/-- A kind's own bit of a mask of kinds says whether it is among them. -/
theorem kindMask_bit (ks : List FaultKind) (k : FaultKind) : (kindMask ks).getLsbD k.index.val = true ↔ k ∈ ks := by
  have below : k.index.val < 8 := k.index.isLt.trans (by decide)
  rw [kindMask, getLsbD_foldl_mask ks below, BitVec.getLsbD_zero, Bool.false_or, List.any_eq_true]
  constructor
  · rintro ⟨j, _, both⟩
    rw [Bool.and_eq_true, decide_eq_true_eq] at both
    obtain ⟨held, same⟩ := both
    rw [index_injective (Fin.ext same)]
    simpa using held
  · exact fun held => ⟨k, mem_allKinds k, by simpa using held⟩

/-! ## The order -/

/-- An answer placed on a state whose notices have been generated since the order was taken. -/
theorem answer_ctl_after (s t : State) (bs : List NoticeBody) (h : t.ctl = (s.takeOrder.notifyAll bs).ctl) (o : Message)
    (r : Result) (more : List Byte) :
    (t.answer o r more).ctl = { (s.notifyAll bs).ctl with
      buffer := s.ctl.buffer.tail
      answer := some (answerTo o r more)
      tx := if (s.notifyAll bs).ctl.tx = .idle then .answer else (s.notifyAll bs).ctl.tx } := by
  rw [answer_ctl, h, notifyAll_takeOrder]

/-- The answer to CLEAR FAULTS of one channel: OK with nothing held, or the recognised state of each kind. -/
theorem answerClear_eq (o : Message) (ch : Chan) (t : State) {c : Context} (h : t.chan[ch] = some c) :
    ∃ r more, t.answerClear o ch = t.answer o r more ∧ ((∀ k, ¬ c.Holds k) → r = .ok ∧ more = []) ∧
      ((∃ k, c.Holds k) → r = .stillPresent ∧ more = allKinds.map fun k => byte (c.fault k).state.code) := by
  rw [State.answerClear, h]
  dsimp only
  by_cases free : c.stillHeld.isEmpty = true
  · rw [if_pos free]
    exact ⟨_, _, rfl, fun _ => ⟨rfl, rfl⟩, fun ⟨k, held⟩ => absurd held ((stillHeld_isEmpty c).mp free k)⟩
  · rw [if_neg free, faults_toList, List.map_map]
    exact ⟨_, _, rfl, fun none => absurd ((stillHeld_isEmpty c).mpr none) free, fun _ => ⟨rfl, rfl⟩⟩

/-- The channels that hold a kind LATCHED or REPORTED, ascending. -/
def State.holders (s : State) : List Chan := s.openChannels.filter fun ch => !(s.stillHeld ch).isEmpty

theorem mem_holders (s : State) (ch : Chan) : ch ∈ s.holders ↔ ∃ c k, s.chan[ch] = some c ∧ c.Holds k := by
  rw [State.holders, List.mem_filter, mem_openChannels]
  constructor
  · rintro ⟨_, held⟩
    obtain ⟨k, hk⟩ := List.exists_mem_of_ne_nil (s.stillHeld ch) (by simpa using held)
    obtain ⟨c, called, holds⟩ := (mem_state_stillHeld s ch k).mp hk
    exact ⟨c, k, called, holds⟩
  · rintro ⟨c, k, called, holds⟩
    have hk : k ∈ s.stillHeld ch := (mem_state_stillHeld s ch k).mpr ⟨c, called, holds⟩
    exact ⟨by rw [called]; rfl, by simpa using List.ne_nil_of_mem hk⟩

theorem heldLists_eq (s : State) :
    ((s.openChannels.map s.stillHeld).filter fun ks => !ks.isEmpty) = s.holders.map s.stillHeld := by
  rw [List.filter_map]
  rfl

/-- The answer to CLEAR FAULTS of every channel: OK with nothing held, or the count of the holders and the mask of what
they hold. -/
theorem answerClearAll_eq (o : Message) (t : State) :
    ∃ r more, t.answerClearAll o = t.answer o r more ∧
      ((∀ (ch : Chan) (c : Context) k, t.chan[ch] = some c → ¬ c.Holds k) → r = .ok ∧ more = []) ∧
      ((∃ (ch : Chan) (c : Context) (k : FaultKind), t.chan[ch] = some c ∧ c.Holds k) → r = .stillPresent ∧
        more = [byte (t.holders.length / 256), byte t.holders.length, kindMask (t.holders.map t.stillHeld).flatten]) := by
  have nonempty : (∃ (ch : Chan) (c : Context) (k : FaultKind), t.chan[ch] = some c ∧ c.Holds k) ↔ t.holders ≠ [] := by
    constructor
    · rintro ⟨ch, c, k, called, holds⟩
      exact List.ne_nil_of_mem ((mem_holders t ch).mpr ⟨c, k, called, holds⟩)
    · intro some
      obtain ⟨ch, hch⟩ := List.exists_mem_of_ne_nil _ some
      obtain ⟨c, k, called, holds⟩ := (mem_holders t ch).mp hch
      exact ⟨ch, c, k, called, holds⟩
  rw [State.answerClearAll, heldLists_eq]
  by_cases free : t.holders = []
  · rw [free]
    exact ⟨_, _, rfl, fun _ => ⟨rfl, rfl⟩, fun held => absurd free (nonempty.mp held)⟩
  · rw [if_neg (by simpa using free), List.length_map]
    refine ⟨_, _, rfl, fun none => absurd ?_ free, fun _ => ⟨rfl, rfl⟩⟩
    by_contra some
    obtain ⟨ch, c, k, called, holds⟩ := nonempty.mpr some
    exact none ch c k called holds

/-- The kinds in the mask are those some channel holds. -/
theorem mem_held_kinds (t : State) (k : FaultKind) :
    k ∈ (t.holders.map t.stillHeld).flatten ↔ ∃ (ch : Chan) (c : Context), t.chan[ch] = some c ∧ c.Holds k := by
  rw [List.mem_flatten]
  constructor
  · rintro ⟨ks, hks, hk⟩
    obtain ⟨ch, _, rfl⟩ := List.mem_map.mp hks
    obtain ⟨c, called, holds⟩ := (mem_state_stillHeld t ch k).mp hk
    exact ⟨ch, c, called, holds⟩
  · rintro ⟨ch, c, called, holds⟩
    exact ⟨t.stillHeld ch, List.mem_map_of_mem ((mem_holders t ch).mpr ⟨c, k, called, holds⟩),
      (mem_state_stillHeld t ch k).mpr ⟨c, called, holds⟩⟩

theorem nodup_holders (s : State) : s.holders.Nodup := (nodup_openChannels s).filter _

theorem zip_toList_some {c d : Context} : ((some c).toList.zip (some d).toList) = [(c, d)] := rfl

/-- Settles O56. -/
theorem clearFaultsClearsAbsentKinds : Obligations.ClearFaultsClearsAbsentKinds := by
  intro s o v ready kind body mode answering
  have run : exec .clearFaults s = .next (s.takeOrder.orderClearFaults o) :=
    congrArg Host.Outcome.next (runOrder_admitted ready (by rw [kind]; rfl) (by rw [body]; rfl)
      (by cases hm : s.mode <;> first | exact absurd hm mode | rfl))
  have replied : ∀ r more, answerTo o r more = ⟨0x8C, o.tag, byte r.code :: more⟩ := fun r more => by
    rw [answerTo, kind]
    rfl
  refine ⟨fun ch named one => ?_, fun all => ?_⟩
  · subst named
    have number : o.at 0 = byte ch.val := at_zero body
    have single : (o.at 0).toNat ≠ 255 := fun same => one (by rw [← number]; exact BitVec.eq_of_toNat_eq same)
    rw [State.orderClearFaults, if_neg single, chan_chanAt body, chanAt_of_body body] at run
    refine ⟨fun free => ?_, fun c called => ?_⟩
    · rw [run, free]
      exact congrArg _ (takeOrder_answer s o _ _)
    · rw [called, if_neg (by simp)] at run
      have taken : s.takeOrder.chan[ch] = some c := called
      have cleared := clearChannel_eq_notices ch s.takeOrder taken
      have self : (s.takeOrder.clearChannel ch).chan[ch] = some c.afterClear := by
        rw [cleared]
        exact set_getElem_fin_self _ _ _
      obtain ⟨r, more, answered, ok, still⟩ := answerClear_eq o ch _ self
      have ctl := answer_ctl_after s (s.takeOrder.clearChannel ch) (clearNotices ch c c.afterClear) (by rw [cleared]) o r more
      rw [answered] at run
      refine ⟨_, c.afterClear, run, ?_, cleared_afterClear c, ?_, ?_, ?_, ?_, ?_, ?_, ?_, ?_, ?_, ?_, ?_, ?_, fun none => ?_,
        fun held => ?_⟩
      · rw [answer_chan, cleared]
        rfl
      · rw [answer_history, cleared]
        rfl
      · rw [ctl]
      · rw [answer_hw, cleared]
        rfl
      · rw [answer_eng, cleared]
        rfl
      · rw [answer_link, cleared]
        rfl
      · rw [answer_tagMap, cleared]
        rfl
      · rw [answer_profiles, cleared]
        rfl
      · rw [answer_settings, cleared]
        rfl
      · rw [answer_mode, cleared]
        rfl
      · rw [answer_due, cleared]
        rfl
      · rw [ctl]
      · rw [ctl, notifyAll_ctl, tell_proc]
        exact ready.idle
      · obtain ⟨rfl, rfl⟩ := ok none
        rw [ctl, replied]
        rfl
      · obtain ⟨rfl, rfl⟩ := still held
        rw [ctl, replied]
        rfl
  · have number : (o.at 0).toNat = 255 := by rw [at_zero body, all]; rfl
    rw [State.orderClearFaults, if_pos number] at run
    generalize ht : s.takeOrder.forEachOpen State.clearChannel = t at run
    obtain ⟨chan, told, history⟩ := (tends_clearChannel s.takeOrder).forEachOpen
    obtain ⟨⟨keeps, hw, due, _, _⟩, link, _⟩ := forEachOpen_worked (s := s.takeOrder) supervised_clearChannel
    have eng : (s.takeOrder.forEachOpen State.clearChannel).eng = s.eng :=
      forEachOpen_induct (p := fun x => x.eng = s.eng) (fun ch x h => (clearChannel_eng ch x).trans h) rfl
    rw [ht] at chan told history keeps hw due link eng
    obtain ⟨r, more, answered, ok, still⟩ := answerClearAll_eq o t
    rw [answered] at run
    have ctl := answer_ctl_after s t _ told o r more
    have notices : s.takeOrder.gather allChannels (fun ch c => clearNotices ch c c.afterClear) =
        allChannels.flatMap fun ch => ((s.chan[ch]).toList.zip (t.chan[ch]).toList).flatMap fun p => clearNotices ch p.1 p.2 :=
      List.flatMap_congr fun ch _ => by
        rw [chan ch]
        change (s.chan[ch]).toList.flatMap _ = ((s.chan[ch]).toList.zip ((s.chan[ch]).map Context.afterClear).toList).flatMap _
        cases s.chan[ch] <;> rfl
    refine ⟨_, run, fun ch free => ?_, fun ch c called => ⟨c.afterClear, ?_, cleared_afterClear c⟩, ?_, ?_, ?_, ?_, ?_, ?_, ?_,
      ?_, ?_, ?_, ?_, ?_, fun none => ?_, fun held => ⟨t.holders, kindMask (t.holders.map t.stillHeld).flatten, nodup_holders t,
        mem_holders t, kindMask_bit7 _, fun k => (kindMask_bit _ k).trans (mem_held_kinds t k), ?_⟩⟩
    · rw [answer_chan, chan ch, show s.takeOrder.chan[ch] = none from free]
      rfl
    · rw [answer_chan, chan ch, show s.takeOrder.chan[ch] = some c from called]
      rfl
    · rw [answer_history, history]
      rfl
    · rw [answer_chan, ← notices, ctl]
    · exact hw
    · exact eng
    · exact link
    · exact keeps.tagMap
    · exact keeps.profiles
    · exact keeps.settings
    · exact keeps.mode
    · exact due
    · rw [ctl]
    · rw [ctl, notifyAll_ctl, tell_proc]
      exact ready.idle
    · obtain ⟨rfl, rfl⟩ := ok none
      rw [ctl, replied]
      rfl
    · obtain ⟨rfl, rfl⟩ := still held
      rw [ctl, replied]
      rfl

end Sys2Proof.Machine
end

section
/-! PROOF. Placements (R140 to R143), the end of a supervision window (R148) and a retry timer's expiry (R153 to R156): O23,
O27 and O28. -/

namespace Sys2Proof.Machine

/-! ## The transmitter after a placement -/

section place
variable {lp : LinkPort} {ch : Chan} {f : Frame}

theorem place_of_empty (h : lp.slots[ch] = none) : lp.place ch f =
    ({ lp with slots := lp.slots.set ch (some ⟨f, false⟩), txQueue := lp.txQueue ++ [ch] } : LinkPort).start := by
  rw [LinkPort.place, h]

theorem place_of_full (h : (lp.slots[ch]).isSome) : lp.place ch f =
    ({ (if lp.txQueue.head? = some ch then lp.abandon else lp) with
      slots := lp.slots.set ch (some ⟨f, false⟩) } : LinkPort).start := by
  obtain ⟨sl, hsl⟩ := Option.isSome_iff_exists.mp h
  rw [LinkPort.place, hsl]
  dsimp only
  split
  · rw [abandon_slots]
  · rfl

/-- A transmission starts with the frame just placed where its channel is the head of the queue. -/
theorem start_of_placed (idle : lp.sending = none) (head : lp.txQueue.head? = some ch)
    (slot : lp.slots[ch] = some ⟨f, false⟩) : lp.start.sending = if lp.state = .up then some f.timeNs else none := by
  rw [start_sending, idle]
  dsimp only
  rw [head, Option.bind_some, slot]
  rfl

/-- The transmission of a replaced frame is ended with the abort delimiter and followed at once by the new one in UP. -/
theorem place_over_sent (busy : lp.sending.isSome) (full : (lp.slots[ch]).isSome) (head : lp.txQueue.head? = some ch) :
    (lp.place ch f).lastDelimiter = .abortDelimiter ∧
      (lp.place ch f).sending = if lp.state = .up then some f.timeNs else none := by
  rw [place_of_full full, if_pos head, abandon_eq]
  refine ⟨?_, ?_⟩
  · rw [start_lastDelimiter]
    exact if_pos busy
  · exact start_of_placed rfl head (set_getElem_fin_self _ _ _)

/-- The transmission of another channel's frame goes on. -/
theorem place_beside_sent (busy : lp.sending.isSome) (other : lp.txQueue.head? ≠ some ch) :
    (lp.place ch f).sending = lp.sending ∧ (lp.place ch f).lastDelimiter = lp.lastDelimiter := by
  obtain ⟨ns, sending⟩ := Option.isSome_iff_exists.mp busy
  cases slot : lp.slots[ch] with
  | none =>
    rw [place_of_empty slot, start_sending, start_lastDelimiter]
    dsimp only
    rw [sending]
    exact ⟨rfl, rfl⟩
  | some sl =>
    rw [place_of_full (by rw [slot]; rfl), if_neg other, start_sending, start_lastDelimiter]
    dsimp only
    rw [sending]
    exact ⟨rfl, rfl⟩

/-- With nothing waiting the frame placed is sent at once in UP. -/
theorem place_alone (idle : lp.sending = none) (empty : lp.txQueue = []) (slot : lp.slots[ch] = none) :
    (lp.place ch f).lastDelimiter = lp.lastDelimiter ∧
      (lp.place ch f).sending = if lp.state = .up then some f.timeNs else none := by
  rw [place_of_empty slot]
  refine ⟨start_lastDelimiter _, ?_⟩
  exact start_of_placed idle (by rw [empty]; rfl) (set_getElem_fin_self _ _ _)

end place

/-! ## Placements -/

theorem overruns_eq (lp : LinkPort) (ch : Chan) (n : Nat) :
    (if lp.overruns ch then bump n else n) = match lp.slots[ch] with
      | some ⟨_, false⟩ => min 65535 (n + 1)
      | _ => n := by
  unfold LinkPort.overruns
  cases lp.slots[ch] with
  | none => rfl
  | some sl =>
    obtain ⟨f, leftOver⟩ := sl
    cases leftOver <;> rfl

/-- What a placement finds: DRIFT, where the frame carries a request and the drift count reaches its limit (R104, R146). -/
def State.findsDrift (s : State) (c : Context) : Bool :=
  c.request.isSome && (s.profileOf c).driftLimit ≤ min 100 (c.drift + 1)

theorem findsDrift_iff (s : State) (c : Context) : s.findsDrift c = true ↔
    c.request.isSome ∧ (s.profileOf c).driftLimit ≤ min 100 (c.drift + 1) := by
  rw [State.findsDrift, Bool.and_eq_true, decide_eq_true_eq]

/-- The state right after a frame has been placed, before a DRIFT finding. -/
def State.placed (ch : Chan) (c : Context) (f : Frame) (s : State) : State :=
  { s with chan := s.chan.set ch (some (c.afterPlacement (s.link.overruns ch))), link := s.link.place ch f }

section placed
variable {ch : Chan} {c : Context} {kind : FrameKind} {rate : Option Rate} {payload : List Byte} {s : State}

theorem placeFrame_of_finds (h : s.chan[ch] = some c) (finds : s.findsDrift c = true) :
    s.placeFrame ch kind rate payload = (s.placed ch c (s.fillFrame c kind rate payload)).findPresent ch .drift := by
  obtain ⟨request, limit⟩ := (findsDrift_iff s c).mp finds
  rw [placeFrame_eq ch kind rate payload s h]
  refine if_pos ?_
  rw [request, Bool.true_and, Context.afterPlacement, if_pos request]
  exact decide_eq_true limit

theorem placeFrame_of_not_finds (h : s.chan[ch] = some c) (none : s.findsDrift c = false) :
    s.placeFrame ch kind rate payload = s.placed ch c (s.fillFrame c kind rate payload) := by
  rw [placeFrame_eq ch kind rate payload s h]
  refine if_neg fun both => Bool.eq_false_iff.mp none ((findsDrift_iff s c).mpr ?_)
  rw [Bool.and_eq_true] at both
  obtain ⟨request, limit⟩ := both
  rw [Context.afterPlacement, if_pos request] at limit
  exact ⟨request, of_decide_eq_true limit⟩

/-- The link port after a placement. -/
theorem placeFrame_link (h : s.chan[ch] = some c) :
    (s.placeFrame ch kind rate payload).link = s.link.place ch (s.fillFrame c kind rate payload) := by
  cases finds : s.findsDrift c with
  | true =>
    rw [placeFrame_of_finds h finds, (supervised_findPresent ch .drift _).link]
    rfl
  | false =>
    rw [placeFrame_of_not_finds h finds]
    rfl

/-- The context after a placement: counted, and with DRIFT found where the placement finds it. -/
def State.placedIn (s : State) (ch : Chan) (c : Context) : Context :=
  c.afterPlacement (s.link.overruns ch)

theorem placed_chan : (s.placed ch c f).chan[ch] = some (s.placedIn ch c) := set_getElem_fin_self _ _ _

theorem placeFrame_chan (h : s.chan[ch] = some c) : (s.placeFrame ch kind rate payload).chan = s.chan.set ch
    (some (if s.findsDrift c then s.foundIn .drift (s.placedIn ch c) else s.placedIn ch c)) := by
  cases finds : s.findsDrift c with
  | true =>
    rw [placeFrame_of_finds h finds, findPresent_chan placed_chan]
    exact Vector.set_set ..
  | false =>
    rw [placeFrame_of_not_finds h finds]
    rfl

end placed

/-- Settles O23. -/
theorem placementFillsSlotAndHeader : Obligations.PlacementFillsSlotAndHeader := by
  intro s t ch c kind rate payload called ht f counted placed
  obtain ⟨⟨keeps, hw, due, rest, _⟩, others, _⟩ := placeFrame_frame ch kind rate payload s
  have link := placeFrame_link (kind := kind) (rate := rate) (payload := payload) called
  rw [← ht] at keeps hw due rest others link
  have counts : c.afterPlacement (s.link.overruns ch) = counted := by
    rw [Context.afterPlacement, overruns_eq]
    rfl
  have state : placed = s.placed ch c f := by
    simp only [placed, State.placed, counts, link]
    rfl
  have whole : t = if c.request.isSome ∧ (s.profileOf c).driftLimit ≤ min 100 (c.drift + 1)
      then State.findPresent ch .drift placed else placed := by
    rw [ht, state]
    split
    · next finds => exact placeFrame_of_finds called ((findsDrift_iff s c).mpr finds)
    · next none => exact placeFrame_of_not_finds called (Bool.eq_false_iff.mpr fun w => none ((findsDrift_iff s c).mp w))
  refine ⟨keeps, others, due, rest, hw, ?_, ?_, ?_, whole, fun busy full head => ?_, fun busy other => ?_,
    fun idle empty slot => ?_⟩
  · rw [link, place_slots]
    rfl
  · rw [link, place_txQueue]
  · have self : t.chan = _ := ht ▸ placeFrame_chan called
    rw [State.placedIn, counts] at self
    refine ⟨_, by rw [self]; exact set_getElem_fin_self _ _ _, ?_⟩
    have touched : s.foundIn .drift counted = _ := found_touches
    split
    · exact ⟨by rw [touched], by rw [touched], by rw [touched]⟩
    · exact ⟨rfl, rfl, rfl⟩
  · rw [link]
    exact place_over_sent busy full head
  · rw [link]
    exact place_beside_sent busy other
  · rw [link]
    exact place_alone idle empty slot

/-! ## Judgements -/

section judged
variable {s : State} {k : FaultKind} {present : Bool} {c : Context}

/-- A judgement writes the fault records, the state and the outcome alone. -/
theorem judgedIn_touches : s.judgedIn k present c = { c with
    faults := (s.judgedIn k present c).faults
    state := (s.judgedIn k present c).state
    outcome := (s.judgedIn k present c).outcome } := by
  cases present with
  | true => exact found_touches
  | false =>
    change c.absent k = { c with
      faults := (c.absent k).faults, state := (c.absent k).state, outcome := (c.absent k).outcome }
    unfold Context.absent
    split <;> rfl

theorem judgedIn_stats : (s.judgedIn k present c).stats = c.stats := by rw [judgedIn_touches]

theorem judgedIn_window : (s.judgedIn k present c).window = c.window := by rw [judgedIn_touches]

theorem profileOf_judgedIn : s.profileOf (s.judgedIn k present c) = s.profileOf c := by
  rw [judgedIn_touches]
  rfl

theorem fault_judgedIn_other {j : FaultKind} (h : j ≠ k) : (s.judgedIn k present c).fault j = c.fault j := by
  cases present with
  | true => exact fault_found_other h
  | false =>
    change (c.absent k).fault j = _
    unfold Context.absent
    split
    · rfl
    · exact fault_setFault_other c k j _ h

theorem fault_absent_self (hc : c.state ≠ .closing) : (c.absent k).fault k = { c.fault k with present := false } := by
  rw [Context.absent, if_neg hc]
  exact fault_setFault_self c k _

theorem judgedIn_present (hc : c.state ≠ .closing) : ((s.judgedIn k present c).fault k).present = present := by
  cases present with
  | true => exact found_present hc
  | false => exact congrArg FaultRecord.present (fault_absent_self hc)

theorem judgedIn_state (hc : c.state ≠ .closing) : ((s.judgedIn k present c).fault k).state =
    judgedState (s.profileOf c).cls[k.index] present (c.fault k).state := by
  cases present with
  | true => exact found_judged hc
  | false =>
    refine (congrArg FaultRecord.state (fault_absent_self hc)).trans ?_
    rw [judgedState, if_neg (by simp)]

/-- A judgement makes no channel CLOSING and takes none out of it. -/
theorem judgedIn_closing_iff : (s.judgedIn k present c).state = .closing ↔ c.state = .closing := by
  by_cases hc : c.state = .closing
  · refine iff_of_true ?_ hc
    cases present with
    | true => exact (congrArg Context.state (found_of_closing hc)).trans hc
    | false => exact (congrArg Context.state (if_pos hc : c.absent k = c)).trans hc
  · refine iff_of_false ?_ hc
    cases present with
    | true =>
      change (s.foundIn k c).state ≠ _
      rw [State.foundIn, found_state hc]
      split
      · simp
      · exact hc
    | false =>
      have same : c.absent k = c.setCondition k false := if_neg hc
      exact fun closing => hc ((congrArg Context.state same).symm.trans closing)

/-- A judgement of one kind leaves the reports of another as they were. -/
theorem raisedBy_judgedIn {j : FaultKind} (h : j ≠ k) (ch : Chan) :
    s.raisedBy j ch (s.judgedIn k present c) = s.raisedBy j ch c := by
  rw [State.raisedBy, State.raisedBy, profileOf_judgedIn, fault_judgedIn_other h]
  exact if_congr (and_congr_left' (not_congr judgedIn_closing_iff)) rfl rfl

theorem judgedIn_congr {t : State} (profiles : t.profiles = s.profiles) : t.judgedIn k present c = s.judgedIn k present c := by
  rw [State.judgedIn, State.judgedIn, foundIn_congr profiles]

/-- The reports of a judgement. -/
def State.judgedBy (s : State) (k : FaultKind) (present : Bool) (ch : Chan) (c : Context) : List FaultReport :=
  if present then s.raisedBy k ch c else []

theorem judge_chan {ch : Chan} (h : s.chan[ch] = some c) :
    (s.judge ch k present).chan = s.chan.set ch (some (s.judgedIn k present c)) := by
  rw [judge_eq ch k present s h]
  dsimp only
  split <;> rfl

theorem judge_ctl {ch : Chan} (h : s.chan[ch] = some c) :
    (s.judge ch k present).ctl = (s.notifyAll ((s.judgedBy k present ch c).map FaultReport.notice)).ctl := by
  rw [judge_eq ch k present s h, notifyAll_ctl]
  dsimp only
  split <;> rfl

theorem judge_history {ch : Chan} (h : s.chan[ch] = some c) :
    (s.judge ch k present).history = s.historyAfter (s.judgedBy k present ch c) := by
  rw [judge_eq ch k present s h]
  dsimp only
  split <;> rfl

/-- Two kinds judged one after the other, each reported as it stood before (R148, R150). -/
theorem judge_judge {ch : Chan} {j : FaultKind} (h : s.chan[ch] = some c) (other : j ≠ k) (later : Bool) :
    let t := (s.judge ch k present).judge ch j later
    let reports := s.judgedBy k present ch c ++ s.judgedBy j later ch c
    t.chan = s.chan.set ch (some (s.judgedIn j later (s.judgedIn k present c))) ∧
      t.ctl = (s.notifyAll (reports.map FaultReport.notice)).ctl ∧ t.history = s.historyAfter reports := by
  generalize hmid : s.judge ch k present = mid
  have frame : Supervised ch s mid := hmid ▸ supervised_judge ch k present s
  have profiles := frame.keeps.profiles
  have here : mid.chan[ch] = some (s.judgedIn k present c) := by
    rw [← hmid, judge_chan h]
    exact set_getElem_fin_self _ _ _
  have second : mid.judgedBy j later ch (s.judgedIn k present c) = s.judgedBy j later ch c := by
    rw [State.judgedBy, State.judgedBy, raisedBy_congr profiles, raisedBy_judgedIn other]
  refine ⟨?_, ?_, ?_⟩
  · rw [judge_chan here, judgedIn_congr profiles, ← hmid, judge_chan h, Vector.set_set]
  · rw [judge_ctl here, second, List.map_append, notifyAll_append]
    exact notifyAll_ctl_congr _ (by rw [← hmid, judge_ctl h]) (by rw [frame.keeps.settings, notifyAll_eq])
      (by rw [frame.hw, notifyAll_eq])
  · rw [judge_history here, second, historyAfter_append]
    exact historyAfter_congr _ (by rw [← hmid, judge_history h]) frame.keeps.settings frame.hw

end judged

/-! ## The end of a supervision window -/

section supervision
variable {s : State} {ch : Chan} {c : Context}

/-- The context after the end of a supervision window: OVERLOAD, then DEADLINE judged, and the counts 0 (R148). -/
def State.supervisedIn (s : State) (c : Context) : Context :=
  { s.judgedIn .deadline ((s.profileOf c).missLimit ≤ c.missWin)
      (s.judgedIn .overload ((s.profileOf c).overloadLimit ≤ c.satUpWin + c.satDnWin) c) with
    satUpWin := 0, satDnWin := 0, missWin := 0 }

/-- The reports of the end of a supervision window. -/
def State.supervisedBy (s : State) (ch : Chan) (c : Context) : List FaultReport :=
  s.judgedBy .overload ((s.profileOf c).overloadLimit ≤ c.satUpWin + c.satDnWin) ch c
    ++ s.judgedBy .deadline ((s.profileOf c).missLimit ≤ c.missWin) ch c

theorem supervisionWindowEnd_eq (h : s.chan[ch] = some c) :
    (s.supervisionWindowEnd ch).chan = s.chan.set ch (some (s.supervisedIn c)) ∧
    (s.supervisionWindowEnd ch).ctl = (s.notifyAll ((s.supervisedBy ch c).map FaultReport.notice)).ctl ∧
    (s.supervisionWindowEnd ch).history = s.historyAfter (s.supervisedBy ch c) := by
  obtain ⟨chan, ctl, history⟩ := judge_judge (k := .overload) (j := .deadline)
    (present := (s.profileOf c).overloadLimit ≤ c.satUpWin + c.satDnWin) h (by decide)
    ((s.profileOf c).missLimit ≤ c.missWin)
  have there := congrArg (fun table : Vector (Option Context) 256 => table[ch]) chan
  simp only [State.supervisionWindowEnd, h, modCtx_eq ch _ _ _ (there.trans (set_getElem_fin_self _ _ _))]
  refine ⟨?_, ctl, history⟩
  rw [setCtx_chan, chan, Vector.set_set]
  rfl

end supervision

/-- The state with the rest of its event taken out, as the first row of the rest meets it. -/
theorem exec_supervisionWindowEnd {s : State} {ch : Chan} {r : List Rest} (h : s.rest = .supervisionWindow ch :: r) :
    exec (.supervisionWindowEnd ch) s =
      .next { ({ s with rest := [] } : State).supervisionWindowEnd ch with rest := r } :=
  congrArg Host.Outcome.next (takeRestUpTo_head _ r s h)

theorem exec_retryTimerExpiry {s : State} {ch : Chan} {r : List Rest} (h : s.rest = .retryExpiry ch :: r) :
    exec (.retryTimerExpiry ch) s = .next { ({ s with rest := [] } : State).retryExpiry ch with rest := r } :=
  congrArg Host.Outcome.next (takeRestUpTo_head _ r s h)

theorem exec_observationWindowEnd {s : State} {ch : Chan} {r : List Rest} (h : s.rest = .observationWindow ch :: r) :
    exec (.observationWindowEnd ch) s =
      .next { ({ s with rest := [] } : State).observationWindowEnd ch with rest := r } :=
  congrArg Host.Outcome.next (takeRestUpTo_head _ r s h)

/-- The rest that stands in a state is no part of its setting. -/
theorem keeps_of_rest {s t : State} {before after : List Rest} (h : KeepsSetting { s with rest := before } t) :
    KeepsSetting s { t with rest := after } := by
  obtain ⟨hw, tagMap, profiles, settings, mode, freeCount, pending, ahead, state, receiving, length, format, unknown,
    accepting, rx, buffer, overrun, proc, answer, newLine⟩ := h
  exact ⟨hw, tagMap, profiles, settings, mode, freeCount, pending, ahead, state, receiving, length, format, unknown,
    accepting, rx, buffer, overrun, proc, answer, newLine⟩

/-- Settles O27. -/
theorem supervisionWindowEndJudges : Obligations.SupervisionWindowEndJudges := by
  intro s ch c r head called open_ p overloaded late reports
  obtain ⟨chan, ctl, history⟩ := supervisionWindowEnd_eq (s := { s with rest := [] }) called
  have frame := supervised_supervisionWindowEnd ch { s with rest := [] }
  have midOpen : (({ s with rest := [] } : State).judgedIn .overload overloaded c).state ≠ .closing :=
    fun closing => open_ (judgedIn_closing_iff.mp closing)
  refine ⟨_, _, exec_supervisionWindowEnd head, by rw [chan]; exact set_getElem_fin_self _ _ _, keeps_of_rest frame.keeps,
    frame.others, rfl, frame.due, frame.link, frame.hw, rfl, rfl, rfl, ?_, ?_, history, ?_, ?_, ?_, ?_, ?_, fun k hk hk' => ?_⟩
  · exact judgedIn_stats.trans judgedIn_stats
  · exact judgedIn_window.trans judgedIn_window
  · refine ctl.trans ?_
    rw [notifyAll_ctl, notifyAll_ctl]
    rfl
  · exact (congrArg FaultRecord.present (fault_judgedIn_other (by decide))).trans (judgedIn_present open_)
  · exact (congrArg FaultRecord.state (fault_judgedIn_other (by decide))).trans (judgedIn_state open_)
  · exact judgedIn_present midOpen
  · refine (judgedIn_state midOpen).trans ?_
    rw [profileOf_judgedIn, fault_judgedIn_other (by decide)]
    rfl
  · exact (fault_judgedIn_other hk').trans (fault_judgedIn_other hk)

/-! ## The expiry of a retry timer -/

section expiry
variable {s : State} {ch : Chan} {c : Context}

/-- Whether a further failed retry brings a kind to its captured limit (R154). -/
theorem afterFailedRetry_of_limit {r : FaultRecord} {time : Nat}
    (h : 0 < r.captured.limit ∧ r.captured.limit ≤ min 15 (r.retryCount + 1)) :
    r.afterFailedRetry time = { r with state := .latched, retryCount := min 15 (r.retryCount + 1) } :=
  if_pos (by simpa [upTo] using h)

theorem afterFailedRetry_of_not_limit {r : FaultRecord} {time : Nat}
    (h : ¬ (0 < r.captured.limit ∧ r.captured.limit ≤ min 15 (r.retryCount + 1))) :
    r.afterFailedRetry time = { r with retryCount := min 15 (r.retryCount + 1), remaining := time } :=
  if_neg (by simpa [upTo] using h)

/-- The reports of an expired kind, by its condition and its captured limit. -/
theorem expiryReports_of_retrying {k : FaultKind} {r : FaultRecord} {time : Nat} (retrying : r.state = .retrying) :
    expiryReports ch time k r =
      if r.present = false then [⟨ch, k, r.captured.cls, .cleared⟩]
      else if 0 < r.captured.limit ∧ r.captured.limit ≤ min 15 (r.retryCount + 1)
      then [⟨ch, k, r.captured.cls, .escalated⟩] else [] := by
  unfold expiryReports
  cases hp : r.present with
  | false => rfl
  | true =>
    by_cases limit : 0 < r.captured.limit ∧ r.captured.limit ≤ min 15 (r.retryCount + 1)
    · simp only [if_true, if_pos limit, afterFailedRetry_of_limit limit]
      rfl
    · simp only [if_true, if_neg limit, afterFailedRetry_of_not_limit limit, retrying]
      rfl

/-- A list built from the members that pass a test is built from all of them, the others giving nothing. -/
theorem flatMap_filter {α β : Type} (p : α → Bool) (f : α → List β) (l : List α) :
    (l.filter p).flatMap f = l.flatMap fun a => if p a then f a else [] := by
  induction l with
  | nil => rfl
  | cons a l ih =>
    rw [List.filter_cons, List.flatMap_cons, ← ih]
    split <;> simp [*]

theorem expiryReportsOf_eq : s.expiryReportsOf ch c = allKinds.flatMap fun k =>
    if ((c.fault k).state = .retrying ∧ (c.fault k).remaining = 0) ∧ (c.fault k).present = false
    then [⟨ch, k, (c.fault k).captured.cls, .cleared⟩]
    else if ((c.fault k).state = .retrying ∧ (c.fault k).remaining = 0) ∧
      0 < (c.fault k).captured.limit ∧ (c.fault k).captured.limit ≤ min 15 ((c.fault k).retryCount + 1)
    then [⟨ch, k, (c.fault k).captured.cls, .escalated⟩] else [] := by
  rw [State.expiryReportsOf, Context.expiredKinds, flatMap_filter]
  refine congrArg (List.flatMap · allKinds) (funext fun k => ?_)
  by_cases expired : (c.fault k).state = .retrying ∧ (c.fault k).remaining = 0
  · rw [if_pos (by simpa using expired), expiryReports_of_retrying expired.1]
    simp only [expired, true_and, and_self]
  · rw [if_neg (by simpa using expired), if_neg (expired ·.1), if_neg (expired ·.1)]

theorem expiredIn_touches : s.expiredIn c = { c with faults := (s.expiredIn c).faults } := tended_touches _ c _

theorem expiredIn_state : (s.expiredIn c).state = c.state := tended_state _ c _

theorem recovers_expiredIn (faulted : c.state = .faulted) :
    (s.expiredIn c).recovers = !(s.expiredIn c).recoveredIfClear.heldByFault := by
  rw [heldByFault_recoveredIfClear, Context.recovers, expiredIn_state, faulted]
  rfl

theorem recoveryNotices_expiredIn (faulted : c.state = .faulted) : recoveryNotices ch (s.expiredIn c) =
    if (s.expiredIn c).recoveredIfClear.heldByFault = false ∧ c.started = true then [.callActive ch] else [] := by
  have started : (s.expiredIn c).started = c.started := tended_started _ c _
  rw [recoveryNotices, recovers_expiredIn faulted, started]
  exact if_congr (by simp) rfl rfl

end expiry

/-- Settles O28. -/
theorem retryTimerExpiryActs : Obligations.RetryTimerExpiryActs := by
  intro s ch c r head called faulted expired limited reports
  have whole := retryExpiry_eq ch { s with rest := [] } called
  have frame := supervised_retryExpiry ch { s with rest := [] }
  have made : ({ s with rest := [] } : State).expiryReportsOf ch c = reports := expiryReportsOf_eq
  have called' : (({ s with rest := [] } : State).retryExpiry ch).chan[ch] = some (s.expiredIn c).recoveredIfClear := by
    rw [whole]
    exact setCtx_chan_self ch _ _
  have kinds : ∀ k, (s.expiredIn c).recoveredIfClear.fault k =
      if expired k then (c.fault k).retried (s.profileOf c).retryTime[k.index] else c.fault k := fun k => by
    rw [fault_recoveredIfClear, fault_expiredIn]
    exact if_congr (mem_expiredKinds c k) rfl rfl
  have touched : s.expiredIn c = _ := expiredIn_touches
  refine ⟨_, _, exec_retryTimerExpiry head, called', keeps_of_rest frame.keeps, frame.others, rfl, frame.due, frame.link,
    ?_, frame.hw, ?_, ?_, ?_, fun k other => ?_, fun k due gone => ?_, ?_, fun held => ?_, fun free => ?_⟩
  · rw [whole, setCtx_eng, notifyAll_eq]
    rfl
  · rw [whole, setCtx_faultFrames, notifyAll_eq]
    rfl
  · rw [whole, setCtx_history, notifyAll_eq, made]
    rfl
  · rw [whole, setCtx_ctl, made, recoveryNotices_expiredIn faulted, notifyAll_append]
    refine notifyAll_ctl_congr _ ?_ ?_ ?_
    · rw [reported_ctl, notifyAll_ctl, notifyAll_ctl]
    · rw [notifyAll_eq]
      rfl
    · rw [notifyAll_eq]
      rfl
  · rw [kinds, if_neg other]
  · rw [kinds, if_pos due, FaultRecord.retried, if_neg (by simp [gone])]
    rfl
  · intro k limit due present captured n
    rw [kinds, if_pos due, FaultRecord.retried, if_pos present]
    have same : (c.fault k).captured.limit = limit := by rw [captured]; rfl
    by_cases reached : 0 < limit ∧ limit ≤ n
    · rw [if_pos reached, afterFailedRetry_of_limit (by rwa [same])]
    · rw [if_neg reached, afterFailedRetry_of_not_limit (by rwa [same])]
  · have stays : (s.expiredIn c).recoveredIfClear = s.expiredIn c := if_neg (by rw [recovers_expiredIn faulted, held]; simp)
    rw [stays]
    exact ⟨expiredIn_state.trans faulted, by rw [touched], by rw [touched], by rw [touched], by rw [touched], by rw [touched]⟩
  · have back : (s.expiredIn c).recoveredIfClear = (s.expiredIn c).recovered := if_pos (by rw [recovers_expiredIn faulted, free]; rfl)
    rw [back]
    exact ⟨by rw [Context.recovered, touched], rfl, rfl, rfl, rfl, rfl⟩

end Sys2Proof.Machine
end

section
/-! PROOF. The downlink boundary of a channel: STARVATION judged, playout started, the head served and the supervision
window moved (R89 to R94, R96, R147, R149): O24, O25 and O26. -/

namespace Sys2Proof.Machine

/-! ## The event itself -/

theorem exec_downlinkBoundary_eq {s : State} {ch : Chan} (idle : s.rest = []) (due : .downlink ch ∈ s.due) :
    exec (.downlinkBoundary ch) s =
      .next (State.downlinkBoundary ch { s with due := s.due.filter fun x => x ≠ .downlink ch }) := by
  change Host.Outcome.next (s.finish.commandEvent (.downlink ch)) = _
  rw [finish_of_rest_nil s idle, commandEvent_of_due _ s due]
  rfl

/-- A channel in any state but CLOSING goes through the four steps (R89, R149). -/
theorem downlinkBoundary_of_open {s : State} {ch : Chan} {c : Context} (h : s.chan[ch] = some c) (open_ : c.state ≠ .closing) :
    s.downlinkBoundary ch = (((s.raiseStarvation ch).startPlayout ch).playHead ch).moveWindow ch c.retryingKinds := by
  unfold State.downlinkBoundary
  rw [h]
  dsimp only
  split
  · next closing => exact absurd closing open_
  all_goals rfl

/-! ## The starvation judgement -/

section starvation
variable {s : State} {ch : Chan} {c : Context}

/-- The context with its starvation count one higher (R96). -/
def Context.hungrier (c : Context) : Context := { c with starvation := min 255 (c.starvation + 1) }

/-- Whether the raised count starves the channel. -/
def State.starves (s : State) (c : Context) : Bool := (s.profileOf c).starveCycles ≤ min 255 (c.starvation + 1)

/-- The context after the starvation judgement. -/
def State.starvedIn (s : State) (c : Context) : Context := s.judgedIn .starvation (s.starves c) c.hungrier

theorem raiseStarvation_eq (h : s.chan[ch] = some c) :
    s.raiseStarvation ch = (s.setCtx ch c.hungrier).judge ch .starvation (s.starves c) := by
  simp only [State.raiseStarvation, h, modCtx_eq ch c s _ h]
  rfl

theorem raiseStarvation_called (h : s.chan[ch] = some c) : (s.raiseStarvation ch).chan[ch] = some (s.starvedIn c) := by
  have judged := judge_chan (k := .starvation) (present := s.starves c) (setCtx_chan_self ch c.hungrier s)
  rw [raiseStarvation_eq h, judged]
  exact set_getElem_fin_self _ _ _

theorem starvedIn_touches : s.starvedIn c = { c.hungrier with
    faults := (s.starvedIn c).faults
    state := (s.starvedIn c).state
    outcome := (s.starvedIn c).outcome } := judgedIn_touches

theorem starvedIn_closing_iff : (s.starvedIn c).state = .closing ↔ c.state = .closing := judgedIn_closing_iff

/-- A kind that is not NONE keeps its record at a judgement, but for the condition. -/
theorem fault_judgedIn_known {k : FaultKind} {present : Bool} (open_ : c.state ≠ .closing) (known : (c.fault k).state ≠ .none) :
    (s.judgedIn k present c).fault k = { c.fault k with present := present } := by
  cases present with
  | true => exact (fault_found_self open_).trans (if_neg known)
  | false => exact fault_absent_self open_

/-- A judgement removes jobs from the queue, and marks those in engines, at most. -/
theorem judge_idle (k : FaultKind) (present : Bool) (h : s.chan[ch] = some c)
    (idle : s.eng.queue = [] ∨ s.eng.idleEngine = none) :
    (s.judge ch k present).eng.queue = [] ∨ (s.judge ch k present).eng.idleEngine = none := by
  rw [judge_eq ch k present s h]
  dsimp only
  split
  · refine idle.imp (fun empty => ?_) fun busy => idleEngine_eq_none_iff.mpr fun e => ?_
    · change List.filter _ s.eng.queue = []
      rw [empty]
      rfl
    · have at_e : (s.eng.engines[e]).isSome := busy_of_idleEngine busy e
      exact (congrArg Option.isSome (dropChannel_engine ch s.eng e)).trans (Option.isSome_map.trans at_e)
  · exact idle

theorem raiseStarvation_idle (h : s.chan[ch] = some c) (idle : s.eng.queue = [] ∨ s.eng.idleEngine = none) :
    (s.raiseStarvation ch).eng.queue = [] ∨ (s.raiseStarvation ch).eng.idleEngine = none := by
  rw [raiseStarvation_eq h]
  exact judge_idle .starvation _ (setCtx_chan_self ch _ s) idle

end starvation

/-! ## Notices and contexts in the frame of a channel -/

theorem supervised_notifyAll (ch : Chan) (bs : List NoticeBody) (s : State) : Supervised ch s (s.notifyAll bs) :=
  supervised_foldl ch _ (fun t b => supervised_notify ch b t) bs s

theorem supervised_setCtx (ch : Chan) (d : Context) {c : Context} (s : State) (h : s.chan[ch] = some c) :
    Supervised ch s (s.setCtx ch d) := modCtx_eq ch c s (fun _ => d) h ▸ supervised_modCtx ch (fun _ => d) s

/-! ## The start of playout -/

section start
variable {s : State} {ch : Chan} {c : Context}

/-- Whether playout starts: WAITING, and the queue holds at least the start depth (R15, R90). -/
def Context.starts (c : Context) : Bool := c.playout = .waiting && c.startDepth ≤ c.queue.length

theorem starts_iff : c.starts = true ↔ c.playout = .waiting ∧ c.startDepth ≤ c.queue.length := by
  simp [Context.starts]

/-- The context after playout has started, where it does. -/
def Context.begun (c : Context) : Context :=
  if c.starts then { c with
    playout := .playing
    started := true
    state := if c.state = .aligning then .active else c.state }
  else c

/-- The notice of a call that playout takes out of ALIGNING. -/
def startNotices (ch : Chan) (c : Context) : List NoticeBody :=
  if c.starts = true ∧ c.state = .aligning then [.callActive ch] else []

theorem startPlayout_eq (h : s.chan[ch] = some c) :
    s.startPlayout ch = (s.notifyAll (startNotices ch c)).setCtx ch c.begun := by
  simp only [State.startPlayout, h, modCtx_eq ch c s _ h]
  change (if c.starts = true then _ else s) = _
  by_cases starts : c.starts = true
  · rw [if_pos starts, Context.begun, if_pos starts, startNotices]
    by_cases aligning : c.state = .aligning
    · simp only [if_pos aligning, if_pos (And.intro starts aligning)]
      rfl
    · simp only [if_neg aligning, if_neg fun w : c.starts = true ∧ c.state = .aligning => aligning w.2]
      rfl
  · rw [if_neg starts, Context.begun, if_neg starts, startNotices, if_neg (starts ·.1)]
    exact (setCtx_of_same ch c s h).symm

theorem begun_touches : c.begun = { c with playout := c.begun.playout, started := c.begun.started, state := c.begun.state } := by
  unfold Context.begun
  split <;> rfl

theorem begun_playout : c.begun.playout = if c.playout = .playing ∨ c.starts = true then .playing else .waiting := by
  unfold Context.begun
  by_cases starts : c.starts = true
  · rw [if_pos starts, if_pos (Or.inr starts : c.playout = .playing ∨ c.starts = true)]
  · rw [if_neg starts]
    cases hp : c.playout <;> simp [starts]

theorem begun_started : c.begun.started = if c.starts = true then true else c.started := by
  unfold Context.begun
  split <;> rfl

theorem begun_state : c.begun.state = if c.starts = true ∧ c.state = .aligning then .active else c.state := by
  unfold Context.begun
  by_cases starts : c.starts = true
  · rw [if_pos starts]
    exact if_congr (by simp [starts]) rfl rfl
  · rw [if_neg starts, if_neg (starts ·.1)]

end start

/-! ## The head -/

section head
variable {s : State} {ch : Chan} {c : Context}

/-- The head that this boundary takes: in PLAYING, the one that is expected (R90). -/
def Context.headTaken (c : Context) : Option QueueEntry :=
  if c.playout = .playing then c.queue.head?.filter fun e => c.expected = some e.seq else none

theorem headTaken_eq_some_iff {e : QueueEntry} : c.headTaken = some e ↔
    c.playout = .playing ∧ ∃ r, c.queue = e :: r ∧ c.expected = some e.seq := by
  unfold Context.headTaken
  split
  · next playing =>
    cases hq : c.queue with
    | nil => simp
    | cons a r =>
      rw [List.head?_cons, Option.filter_eq_some_iff]
      simp only [Option.some.injEq, decide_eq_true_eq, List.cons.injEq, playing, true_and]
      constructor
      · rintro ⟨rfl, expected⟩
        exact ⟨r, ⟨rfl, rfl⟩, expected⟩
      · rintro ⟨_, ⟨rfl, _⟩, expected⟩
        exact ⟨rfl, expected⟩
  · next waiting => simp [waiting]

/-- The context once its head is taken, or missing, or while it waits (R90, R94). -/
def Context.passed (c : Context) : Context :=
  match c.headTaken, c.playout with
  | some _, _ => { c with queue := c.queue.tail, expected := c.expected.map (· + 1) }
  | none, .waiting => { c with outcome := if c.state = .active then .missing else .none }
  | none, .playing => { c with
      expected := c.expected.map (· + 1)
      outcome := .missing
      stats := { c.stats with missing := bump c.stats.missing } }

theorem passed_of_waiting (h : c.playout = .waiting) :
    c.passed = { c with outcome := if c.state = .active then .missing else .none } := by
  have none : c.headTaken = none := if_neg (by simp [h])
  rw [Context.passed, none, h]

theorem passed_of_taken {e : QueueEntry} (h : c.headTaken = some e) :
    c.passed = { c with queue := c.queue.tail, expected := c.expected.map (· + 1) } := by
  rw [Context.passed, h]

theorem passed_of_missing (h : c.headTaken = none) (playing : c.playout = .playing) :
    c.passed = { c with
      expected := c.expected.map (· + 1)
      outcome := .missing
      stats := { c.stats with missing := min 65535 (c.stats.missing + 1) } } := by
  rw [Context.passed, h, playing]
  rfl

theorem passed_touches : c.passed = { c with
    queue := c.passed.queue, expected := c.passed.expected, outcome := c.passed.outcome, stats := c.passed.stats } := by
  unfold Context.passed
  split <;> rfl

theorem playHead_eq (h : s.chan[ch] = some c) : s.playHead ch = match c.headTaken with
    | some e => (s.setCtx ch c.passed).serve ch e
    | none => s.setCtx ch c.passed := by
  unfold State.playHead
  rw [h]
  simp only [modCtx_eq ch c s _ h]
  split
  · next hp =>
    have none : c.headTaken = none := if_neg (by simp [hp])
    rw [none, passed_of_waiting hp]
  · next hp =>
    split
    · next hq =>
      have none : c.headTaken = none := by rw [Context.headTaken, if_pos hp, hq]; rfl
      rw [none, passed_of_missing none hp]
      rfl
    · next e r hq =>
      by_cases expected : c.expected = some e.seq
      · have taken : c.headTaken = some e := headTaken_eq_some_iff.mpr ⟨hp, r, hq, expected⟩
        rw [if_pos expected, taken, passed_of_taken taken, hq]
        rfl
      · have none : c.headTaken = none := by
          rw [Context.headTaken, if_pos hp, hq, List.head?_cons]
          simp [expected]
        rw [if_neg expected, none, passed_of_missing none hp]
        rfl

/-- The context after a head other than SPEECH has been served (R92, R93). -/
def Context.served (e : QueueEntry) (c : Context) : Context :=
  match e.kind with
  | .speech => c
  | .sid => { c with noiseLevel := some (sidPayloadLevel e.payload), decY := 0, outcome := .sid }
  | .noData => { c with outcome := .noData }
  | .endCall => { c with outcome := .endFrame }

theorem served_touches {e : QueueEntry} : c.served e = { c with
    noiseLevel := (c.served e).noiseLevel, decY := (c.served e).decY, outcome := (c.served e).outcome } := by
  unfold Context.served
  split <;> rfl

/-- The notice of a head: CALL FAR_END at END (R93). -/
def servedNotices (ch : Chan) (e : QueueEntry) : List NoticeBody := if e.kind = .endCall then [.callFarEnd ch] else []

theorem serve_of_quiet {e : QueueEntry} (h : s.chan[ch] = some c) (quiet : e.kind ≠ .speech) :
    s.serve ch e = (s.notifyAll (servedNotices ch e)).setCtx ch (c.served e) := by
  unfold State.serve Context.served servedNotices
  simp only [modCtx_eq ch c s _ h]
  cases hk : e.kind with
  | speech => exact absurd hk quiet
  | sid | noData | endCall => rfl

end head

/-! ## A miss, and a submission -/

section miss
variable {s : State} {ch : Chan} {c : Context}

/-- Whether one more miss brings the load window to its limit (R131). -/
def State.overloads (s : State) : Bool := s.eng.load.state = .normal && s.settings.loadLimit ≤ s.eng.load.misses + 1

theorem overloads_iff : s.overloads = true ↔ s.eng.load.state = .normal ∧ s.settings.loadLimit ≤ s.eng.load.misses + 1 := by
  simp [State.overloads]

/-- The notice of a miss (R131, R178). -/
def State.missNotices (s : State) : List NoticeBody := if s.overloads then [.loadState .overloaded] else []

/-- The load monitor after a miss (R130, R131). -/
def State.loadAfterMiss (s : State) : LoadMonitor :=
  { s.eng.load with
    state := if s.overloads then .overloaded else s.eng.load.state
    misses := s.eng.load.misses + 1 }

theorem loadMiss_eq : s.loadMiss = { s.notifyAll s.missNotices with eng := { s.eng with load := s.loadAfterMiss } } := by
  rw [notifyAll_eq, State.missNotices, State.loadAfterMiss]
  change (if s.overloads = true then _ else _) = _
  split <;> rfl

theorem countMiss_eq (kind : JobKind) (h : s.chan[ch] = some c) : s.countMiss ch kind =
    { (s.notifyAll s.missNotices).setCtx ch (c.missed kind) with eng := { s.eng with load := s.loadAfterMiss } } := by
  rw [State.countMiss, modCtx_eq ch c s _ h, loadMiss_eq, ← setCtx_notifyAll]
  rfl

/-- The engines after a submission where no job waits beside an idle engine (R122). -/
def State.submitted (j : Job) (now : Nat) (s : State) : EngineBlock :=
  match s.eng.idleEngine with
  | some n => { s.eng with
      queue := []
      engines := s.eng.engines.set n (some ⟨j, now, now + j.durationNs, false, s.codecRead j.chan⟩) }
  | none => { s.eng with queue := insertJob j s.eng.queue }

theorem submitted_of_idle {j : Job} {now : Nat} {n : EngineNo} (h : s.eng.idleEngine = some n) :
    s.submitted j now = { s.eng with
      queue := []
      engines := s.eng.engines.set n (some ⟨j, now, now + j.durationNs, false, s.codecRead j.chan⟩) } := by
  rw [State.submitted, h]

theorem submitted_of_busy {j : Job} {now : Nat} (h : s.eng.idleEngine = none) :
    s.submitted j now = { s.eng with queue := insertJob j s.eng.queue } := by
  rw [State.submitted, h]

theorem submit_eq {j : Job} {now : Nat} (idle : s.eng.queue = [] ∨ s.eng.idleEngine = none)
    (meets : now + j.durationNs ≤ j.deadline) : s.submit j now = { s with eng := s.submitted j now } := by
  cases he : s.eng.idleEngine with
  | none =>
    rw [submit_of_busy j now s he, State.submitted, he]
  | some n =>
    have empty : s.eng.queue = [] := idle.resolve_right (by simp [he])
    rw [submit_of_idle j now s empty he meets, State.submitted, he, State.startJob, ← empty]

end miss

/-! ## A SPEECH head -/

section speech
variable {s : State} {ch : Chan} {c : Context}

/-- The context after a SPEECH head: dropped in FAULTED, missed while a DECODE job is held, else pending (R91). -/
def State.speechServed (ch : Chan) (s : State) (c : Context) : Context :=
  if c.state = .faulted then { c with
    outcome := .none
    stats := { c.stats with discardedInFault := bump c.stats.discardedInFault } }
  else if s.eng.holdsJob ch .decode then ({ c with outcome := .decode .missed } : Context).missed .decode
  else { c with outcome := .decode .pending }

/-- The notice of a SPEECH head: that of the miss it may be. -/
def State.speechNotices (ch : Chan) (s : State) (c : Context) : List NoticeBody :=
  if c.state ≠ .faulted ∧ s.eng.holdsJob ch .decode = true then s.missNotices else []

/-- The engines after a SPEECH head. -/
def State.speechEngines (ch : Chan) (rate : Rate) (payload : List Byte) (s : State) (c : Context) : EngineBlock :=
  if c.state = .faulted then s.eng
  else if s.eng.holdsJob ch .decode then { s.eng with load := s.loadAfterMiss }
  else (s.setCtx ch { c with outcome := .decode .pending }).submitted (decodeJobAt ch rate payload s.hw.periodStart)
    s.hw.periodStart

theorem serveSpeech_eq (rate : Rate) (payload : List Byte) (h : s.chan[ch] = some c)
    (idle : s.eng.queue = [] ∨ s.eng.idleEngine = none) : s.serveSpeech ch rate payload =
      { (s.notifyAll (s.speechNotices ch c)).setCtx ch (s.speechServed ch c) with
        eng := s.speechEngines ch rate payload c } := by
  have serving (hs : c.state ≠ .faulted) : (if s.eng.holdsJob ch .decode then
        (s.setCtx ch { c with outcome := .decode .missed }).countMiss ch .decode
      else (s.setCtx ch { c with outcome := .decode .pending }).submit
        (decodeJobAt ch rate payload s.hw.periodStart) s.hw.periodStart) =
      { (s.notifyAll (s.speechNotices ch c)).setCtx ch (s.speechServed ch c) with
        eng := s.speechEngines ch rate payload c } := by
    rw [State.speechServed, State.speechNotices, State.speechEngines, if_neg hs, if_neg hs]
    by_cases held : s.eng.holdsJob ch .decode = true
    · rw [if_pos held, if_pos held, if_pos held, if_pos ⟨hs, held⟩, countMiss_eq .decode (setCtx_chan_self ch _ s),
        setCtx_notifyAll, setCtx_setCtx]
      rfl
    · rw [if_neg held, if_neg held, if_neg held, if_neg (held ·.2)]
      refine submit_eq (s := s.setCtx ch _) idle ?_
      have short : jobDurationNs .decode rate ≤ 4000000 := by cases rate <;> decide
      exact Nat.add_le_add_left short _
  unfold State.serveSpeech
  rw [h]
  simp only [modCtx_eq ch c s _ h]
  split
  · next hs =>
    rw [State.speechServed, State.speechNotices, State.speechEngines, if_pos hs, if_pos hs, if_neg (·.1 hs)]
    rfl
  all_goals next hs => exact serving (by rw [hs]; decide)

/-- A SPEECH head moves the engines the same whatever notices were generated, and whatever the channel was, before it. -/
theorem speechEngines_of_told (rate : Rate) (payload : List Byte) (bs : List NoticeBody) (d : Context) :
    State.speechEngines ch rate payload ((s.notifyAll bs).setCtx ch d) c = State.speechEngines ch rate payload s c := by
  rw [notifyAll_eq, State.speechEngines, State.speechEngines, setCtx_setCtx]
  rfl

theorem speechServed_touches : s.speechServed ch c = { c with
    outcome := (s.speechServed ch c).outcome
    stats := (s.speechServed ch c).stats
    missWin := (s.speechServed ch c).missWin } := by
  unfold State.speechServed
  split
  · rfl
  · split <;> rfl

theorem speechServed_of_faulted (h : c.state = .faulted) : s.speechServed ch c = { c with
    outcome := .none
    stats := { c.stats with discardedInFault := bump c.stats.discardedInFault } } := if_pos h

theorem speechServed_of_held (serving : c.state ≠ .faulted) (held : s.eng.holdsJob ch .decode = true) :
    s.speechServed ch c = ({ c with outcome := .decode .missed } : Context).missed .decode :=
  (if_neg serving).trans (if_pos held)

theorem speechServed_of_free (serving : c.state ≠ .faulted) (free : s.eng.holdsJob ch .decode = false) :
    s.speechServed ch c = { c with outcome := .decode .pending } :=
  (if_neg serving).trans (if_neg (by simp [free]))

theorem speechEngines_of_faulted {rate : Rate} {payload : List Byte} (h : c.state = .faulted) :
    s.speechEngines ch rate payload c = s.eng := if_pos h

theorem speechEngines_of_held {rate : Rate} {payload : List Byte} (serving : c.state ≠ .faulted)
    (held : s.eng.holdsJob ch .decode = true) :
    s.speechEngines ch rate payload c = { s.eng with load := s.loadAfterMiss } := (if_neg serving).trans (if_pos held)

theorem speechEngines_of_free {rate : Rate} {payload : List Byte} (serving : c.state ≠ .faulted)
    (free : s.eng.holdsJob ch .decode = false) : s.speechEngines ch rate payload c =
      (s.setCtx ch { c with outcome := .decode .pending }).submitted (decodeJobAt ch rate payload s.hw.periodStart)
        s.hw.periodStart := (if_neg serving).trans (if_neg (by simp [free]))

theorem speechServed_state : (s.speechServed ch c).state = c.state := by rw [speechServed_touches]

theorem speechServed_missing : (s.speechServed ch c).stats.missing = c.stats.missing := by
  unfold State.speechServed
  split
  · rfl
  · split <;> rfl

end speech

/-! ## The supervision window -/

section window
variable {s : State} {ch : Chan} {c : Context}

/-- The context with its window position moved and the timers of some kinds lowered (R147, R149). -/
def Context.moved (before : List FaultKind) (c : Context) : Context :=
  ({ c with window := some (nextWindow c.window) }).lowerTimers before

theorem moved_touches (before : List FaultKind) :
    c.moved before = { c with window := some (nextWindow c.window), faults := (c.moved before).faults } := by
  rw [Context.moved, lowerTimers_eq]
  exact tended_touches _ _ before

theorem fault_moved {before : List FaultKind} (once : before.Nodup) (k : FaultKind) :
    (c.moved before).fault k = if k ∈ before then (c.fault k).lowered else c.fault k := by
  rw [Context.moved, lowerTimers_eq]
  exact fault_tended _ _ once k

/-- The rest that the supervision of a boundary leaves (R149). -/
def windowRest (ch : Chan) (before : List FaultKind) (c : Context) : List Rest :=
  (if c.window = some 49 then [.supervisionWindow ch] else [])
    ++ (if (c.moved before).expiredKinds.isEmpty then [] else [.retryExpiry ch])

theorem moveWindow_eq (before : List FaultKind) (h : s.chan[ch] = some c) :
    s.moveWindow ch before = { s.setCtx ch (c.moved before) with rest := s.rest ++ windowRest ch before c } := by
  rw [State.moveWindow, h, windowRest, ← List.append_assoc]
  rfl

theorem moveWindow_called (before : List FaultKind) (h : s.chan[ch] = some c) :
    (s.moveWindow ch before).chan[ch] = some (c.moved before) := by
  rw [moveWindow_eq before h]
  exact setCtx_chan_self ch _ s

end window

/-! ## A boundary whose head is no SPEECH frame -/

section quiet
variable {s : State} {ch : Chan} {c : Context}

/-- The context after the head, or its absence, has been played without a job. -/
def Context.played (c : Context) : Context :=
  match c.headTaken with
  | some e => c.passed.served e
  | none => c.passed

/-- The notices of the head that is played. -/
def headNotices (ch : Chan) (c : Context) : List NoticeBody :=
  match c.headTaken with
  | some e => servedNotices ch e
  | none => []

theorem playHead_of_quiet (h : s.chan[ch] = some c) (quiet : ∀ e, c.headTaken = some e → e.kind ≠ .speech) :
    s.playHead ch = (s.notifyAll (headNotices ch c)).setCtx ch c.played := by
  rw [playHead_eq h, Context.played, headNotices]
  cases ht : c.headTaken with
  | none => rfl
  | some e =>
    refine (serve_of_quiet (setCtx_chan_self ch _ s) (quiet e ht)).trans ?_
    rw [setCtx_notifyAll, setCtx_setCtx]

theorem played_touches : c.played = { c with
    queue := c.passed.queue, expected := c.passed.expected, stats := c.passed.stats
    noiseLevel := c.played.noiseLevel, decY := c.played.decY, outcome := c.played.outcome } := by
  have rest : c.played = { c.passed with
      noiseLevel := c.played.noiseLevel, decY := c.played.decY, outcome := c.played.outcome } := by
    unfold Context.played
    split
    · exact served_touches
    · rfl
  have passed := passed_touches (c := c)
  generalize c.played = p at *
  generalize c.passed = q at *
  rw [rest, passed]

end quiet

/-- The steps of a boundary before its window moves, from the state after the starvation judgement. -/
theorem startPlayout_playHead_of_quiet {u : State} {ch : Chan} {d : Context} (h : u.chan[ch] = some d)
    (quiet : ∀ e, d.begun.headTaken = some e → e.kind ≠ .speech) :
    (u.startPlayout ch).playHead ch =
      (u.notifyAll (startNotices ch d ++ headNotices ch d.begun)).setCtx ch d.begun.played := by
  rw [startPlayout_eq h, playHead_of_quiet (setCtx_chan_self ch _ _) quiet, setCtx_notifyAll, setCtx_setCtx,
    notifyAll_append]

/-- A boundary changes the setting, the other channels and the link as little as its steps before the window do. -/
theorem moveWindow_frame {s u : State} {ch : Chan} {c : Context} (before : List FaultKind) (h : u.chan[ch] = some c)
    (keeps : KeepsSetting s u) (others : OthersKept ch s u) :
    KeepsSetting s (u.moveWindow ch before) ∧ OthersKept ch s (u.moveWindow ch before) := by
  rw [moveWindow_eq before h]
  have frame := supervised_setCtx ch (c.moved before) u h
  exact ⟨keeps_of_rest (before := s.rest) (keeps.trans frame.keeps), others.trans frame.others⟩

theorem setDue_frame (due : List Due) (ch : Chan) (s : State) : KeepsSetting s { s with due := due } ∧
    OthersKept ch s { s with due := due } := ⟨by constructor <;> rfl, fun _ _ => ⟨rfl, rfl⟩⟩

theorem played_of_none {c : Context} (h : c.headTaken = none) : c.played = c.passed := by rw [Context.played, h]

theorem played_of_taken {c : Context} {e : QueueEntry} (h : c.headTaken = some e) : c.played = c.passed.served e := by
  rw [Context.played, h]

theorem headTaken_begun_iff {d : Context} {e : QueueEntry} : d.begun.headTaken = some e ↔
    (d.playout = .playing ∨ d.starts = true) ∧ ∃ r, d.queue = e :: r ∧ d.expected = some e.seq := by
  have touched := begun_touches (c := d)
  have queue : d.begun.queue = d.queue := by rw [touched]
  have expected : d.begun.expected = d.expected := by rw [touched]
  rw [headTaken_eq_some_iff, begun_playout, queue, expected]
  refine and_congr_left fun _ => ?_
  split
  · next plays => simp [plays]
  · next waits => simp [waits]

/-- What a downlink boundary does after its starvation judgement, and what that judgement leaves. -/
theorem downlinkBoundary_after_judgement {s u : State} {ch : Chan} {c d : Context} (idle : s.rest = [])
    (due : .downlink ch ∈ s.due) (called : s.chan[ch] = some c) (open_ : c.state ≠ .closing)
    (hu : u = State.raiseStarvation ch { s with due := s.due.filter fun x => x ≠ .downlink ch }) (hd : u.chan[ch] = some d) :
    exec (.downlinkBoundary ch) s = .next (((u.startPlayout ch).playHead ch).moveWindow ch c.retryingKinds) ∧
    Supervised ch { s with due := s.due.filter fun x => x ≠ .downlink ch } u ∧ d = s.starvedIn c := by
  subst hu
  have called' : ({ s with due := s.due.filter fun x => x ≠ .downlink ch } : State).chan[ch] = some c := called
  refine ⟨?_, supervised_raiseStarvation ch _, (Option.some.inj ((raiseStarvation_called called').symm.trans hd)).symm⟩
  rw [exec_downlinkBoundary_eq idle due, downlinkBoundary_of_open called' open_]

/-- Settles O24. -/
theorem downlinkBoundaryPlaysHead : Obligations.DownlinkBoundaryPlaysHead := by
  intro s u ch c d idle due called open_ hu hd starts plays active quiet
  have starts_iff' : d.starts = true ↔ starts := starts_iff
  have plays_iff : (d.playout = .playing ∨ d.starts = true) ↔ plays := or_congr_right starts_iff'
  have head_iff : ∀ e, d.begun.headTaken = some e ↔ plays ∧ ∃ r, d.queue = e :: r ∧ d.expected = some e.seq :=
    fun e => headTaken_begun_iff.trans (and_congr_left' plays_iff)
  have started : startNotices ch d = active := if_congr (and_congr_left' starts_iff') rfl rfl
  have calm : ∀ e, d.begun.headTaken = some e → e.kind ≠ .speech := fun e he => by
    obtain ⟨hp, r, hq, hx⟩ := (head_iff e).mp he
    exact quiet hp e r hq hx
  have run := startPlayout_playHead_of_quiet hd calm
  have frame : Supervised ch u ((u.startPlayout ch).playHead ch) := by
    rw [run]
    exact (supervised_notifyAll ch _ u).trans (supervised_setCtx ch _ _ (by rw [notifyAll_eq]; exact hd))
  have called' : ((u.startPlayout ch).playHead ch).chan[ch] = some d.begun.played := by
    rw [run]
    exact setCtx_chan_self ch _ _
  obtain ⟨event, judged, source⟩ := downlinkBoundary_after_judgement idle due called open_ hu hd
  obtain ⟨keeps, others⟩ := moveWindow_frame c.retryingKinds called'
    (((setDue_frame _ ch s).1.trans judged.keeps).trans frame.keeps)
    (((setDue_frame _ ch s).2.trans judged.others).trans frame.others)
  have starved : d = _ := source.trans starvedIn_touches
  have begun := begun_touches (c := d)
  have played := played_touches (c := d.begun)
  have moved := moved_touches (c := d.begun.played) c.retryingKinds
  have ctl : (((u.startPlayout ch).playHead ch).moveWindow ch c.retryingKinds).ctl =
      (u.notifyAll (active ++ headNotices ch d.begun)).ctl := by
    rw [moveWindow_eq _ called', run, started]
    rfl
  have absent : (¬ ∃ e, d.begun.headTaken = some e) → d.begun.headTaken = none := fun h =>
    Option.eq_none_iff_forall_ne_some.mpr fun e he => h ⟨e, he⟩
  refine ⟨_, _, event, moveWindow_called _ called', keeps, others, ?_, ?_, ?_, ?_, ?_, ?_, ?_, ?_, ?_, ?_, fun noEnd => ?_,
    fun waits => ?_, fun hp missing => ?_, fun hp e r hq hx => ?_⟩
  · rw [moveWindow_eq _ called']
    exact frame.due.trans judged.due
  · rw [moveWindow_eq _ called']
    exact frame.link.trans judged.link
  · rw [moveWindow_eq _ called', run, notifyAll_eq]
    rfl
  · rw [moveWindow_eq _ called', run, notifyAll_eq]
    rfl
  · rw [moved, played]
    exact begun_state.trans (if_congr (and_congr_left' starts_iff') rfl rfl)
  · rw [moved, played]
    exact begun_playout.trans (if_congr plays_iff rfl rfl)
  · rw [moved, played]
    exact begun_started.trans (if_congr starts_iff' rfl rfl)
  · rw [moved, played, begun, starved]
    rfl
  · rw [moved, played, begun, starved]
    rfl
  · rw [moved, played, begun, starved]
    rfl
  · rw [ctl]
    have none : headNotices ch d.begun = [] := by
      rw [headNotices]
      split
      · next e he =>
        obtain ⟨hp, r, hq, hx⟩ := (head_iff e).mp he
        exact if_neg fun far => noEnd ⟨e, r, hp, hq, hx, far⟩
      · rfl
    rw [none, List.append_nil]
  · have none : d.begun.headTaken = none := absent fun ⟨e, he⟩ => waits ((head_iff e).mp he).1
    have waiting : d.begun.playout = .waiting := begun_playout.trans (if_neg fun w => waits (plays_iff.mp w))
    have same : d.begun = d := if_neg fun w => waits (.inr (starts_iff'.mp w))
    rw [moved, played_of_none none, passed_of_waiting waiting, same]
    refine ⟨rfl, rfl, ?_, rfl⟩
    rw [starved]
    rfl
  · have none : d.begun.headTaken = none := absent fun ⟨e, he⟩ => by
      obtain ⟨_, r, hq, hx⟩ := (head_iff e).mp he
      exact missing e r hq hx
    have playing : d.begun.playout = .playing := begun_playout.trans (if_pos (plays_iff.mpr hp))
    rw [moved, played_of_none none, passed_of_missing none playing, begun]
    refine ⟨rfl, rfl, ?_, rfl⟩
    rw [starved]
    rfl
  · have taken : d.begun.headTaken = some e := (head_iff e).mpr ⟨hp, r, hq, hx⟩
    have queue : d.begun.passed.queue = r := by rw [passed_of_taken taken, begun, hq]; rfl
    have expected : d.begun.passed.expected = some (e.seq + 1) := by rw [passed_of_taken taken, begun, hx]; rfl
    have stats : d.begun.passed.stats = c.stats := by rw [passed_of_taken taken, begun, starved]; rfl
    have levels : d.begun.passed.decY = d.decY ∧ d.begun.passed.noiseLevel = d.noiseLevel := by
      rw [passed_of_taken taken, begun]
      exact ⟨rfl, rfl⟩
    have served : (d.begun.played.moved c.retryingKinds).outcome = (d.begun.passed.served e).outcome ∧
        (d.begun.played.moved c.retryingKinds).decY = (d.begun.passed.served e).decY ∧
        (d.begun.played.moved c.retryingKinds).noiseLevel = (d.begun.passed.served e).noiseLevel := by
      rw [moved, played_of_taken taken]
      exact ⟨rfl, rfl, rfl⟩
    obtain ⟨outcome, decY, noiseLevel⟩ := served
    refine ⟨?_, ?_, ?_, fun sid => ?_, fun noData => ?_, fun far => ?_⟩
    · rw [moved, played]
      exact queue
    · rw [moved, played]
      exact expected
    · rw [moved, played]
      exact congrArg Stats.missing stats
    · rw [outcome, decY, noiseLevel, Context.served, sid]
      exact ⟨rfl, rfl, rfl⟩
    · rw [outcome, decY, noiseLevel, Context.served, noData]
      exact ⟨rfl, levels⟩
    · rw [outcome, decY, noiseLevel, Context.served, far]
      refine ⟨rfl, levels.1, levels.2, ?_⟩
      have notices : headNotices ch d.begun = [.callFarEnd ch] := by
        rw [headNotices, taken]
        exact if_pos far
      rw [ctl, notices]

/-- The steps of a boundary before its window moves, where it takes a SPEECH head. -/
theorem startPlayout_playHead_of_speech {u : State} {ch : Chan} {d : Context} {e : QueueEntry} (h : u.chan[ch] = some d)
    (idle : u.eng.queue = [] ∨ u.eng.idleEngine = none) (taken : d.begun.headTaken = some e) (speech : e.kind = .speech) :
    (u.startPlayout ch).playHead ch =
      { (u.notifyAll (startNotices ch d ++ u.speechNotices ch d.begun.passed)).setCtx ch (u.speechServed ch d.begun.passed) with
        eng := State.speechEngines ch (e.rate.getD .l16) e.payload u d.begun.passed } := by
  have run : (u.startPlayout ch).playHead ch =
      State.serveSpeech ch (e.rate.getD .l16) e.payload ((u.notifyAll (startNotices ch d)).setCtx ch d.begun.passed) := by
    rw [startPlayout_eq h, playHead_eq (setCtx_chan_self ch _ _), taken]
    change State.serve ch e _ = _
    rw [setCtx_setCtx, State.serve, speech]
  rw [run, serveSpeech_eq _ _ (setCtx_chan_self ch _ _) (by rw [setCtx_eng, notifyAll_eq]; exact idle)]
  rw [speechEngines_of_told, notifyAll_append, setCtx_notifyAll, setCtx_setCtx, notifyAll_eq (startNotices ch d)]
  rfl

/-- Notices, one context and the engines written: the setting, the other channels and the rest stay. -/
theorem told_frame {u : State} {ch : Chan} {d : Context} (bs : List NoticeBody) (x : Context) (eng : EngineBlock)
    (h : u.chan[ch] = some d) : KeepsSetting u { (u.notifyAll bs).setCtx ch x with eng := eng } ∧
      OthersKept ch u { (u.notifyAll bs).setCtx ch x with eng := eng } ∧
      ({ (u.notifyAll bs).setCtx ch x with eng := eng } : State).due = u.due ∧
      ({ (u.notifyAll bs).setCtx ch x with eng := eng } : State).link = u.link ∧
      ({ (u.notifyAll bs).setCtx ch x with eng := eng } : State).rest = u.rest ∧
      ({ (u.notifyAll bs).setCtx ch x with eng := eng } : State).history = u.history := by
  have told := (supervised_notifyAll ch bs u).trans (supervised_setCtx ch x _ (by rw [notifyAll_eq]; exact h))
  obtain ⟨keeps, others, _, link, due, rest, _, _⟩ := told
  refine ⟨?_, others, due, link, rest, by rw [notifyAll_eq]; rfl⟩
  obtain ⟨hw, tagMap, profiles, settings, mode, freeCount, pending, ahead, state, receiving, length, format, unknown,
    accepting, rx, buffer, overrun, proc, answer, newLine⟩ := keeps
  exact ⟨hw, tagMap, profiles, settings, mode, freeCount, pending, ahead, state, receiving, length, format, unknown,
    accepting, rx, buffer, overrun, proc, answer, newLine⟩

theorem begun_faulted_iff {c : Context} : c.begun.state = .faulted ↔ c.state = .faulted := by
  rw [begun_state]
  split
  · next aligning => simp [aligning.2]
  · rfl

/-- Settles O25. -/
theorem downlinkBoundaryServesSpeech : Obligations.DownlinkBoundaryServesSpeech := by
  intro s u ch c d e r rate idle due called open_ free hu hd plays hq hx speech hrate j active overloads
  obtain ⟨event, judged, source⟩ := downlinkBoundary_after_judgement idle due called open_ hu hd
  have starved : d = _ := source.trans starvedIn_touches
  have free' : u.eng.queue = [] ∨ u.eng.idleEngine = none := hu ▸ raiseStarvation_idle called free
  have starts : (d.playout = .playing ∨ d.starts = true) := by
    cases hp : d.playout with
    | playing => exact .inl rfl
    | waiting => exact .inr (starts_iff.mpr ⟨hp, plays.resolve_left (by simp [hp])⟩)
  have taken : d.begun.headTaken = some e := headTaken_begun_iff.mpr ⟨starts, r, hq, hx⟩
  have run := startPlayout_playHead_of_speech hd free' taken speech
  rw [hrate, Option.getD_some] at run
  have started : startNotices ch d = active := if_congr (and_congr_left' ⟨fun w => (starts_iff.mp w).1,
    fun w => starts.resolve_left (by simp [w])⟩) rfl rfl
  have begun := begun_touches (c := d)
  have passed := passed_of_taken taken
  have queue : d.begun.passed.queue = r := by rw [passed, begun, hq]; rfl
  have expected : d.begun.passed.expected = some (e.seq + 1) := by rw [passed, begun, hx]; rfl
  have stats : d.begun.passed.stats = c.stats := by rw [passed, begun, starved]; rfl
  have missWin : d.begun.passed.missWin = c.missWin := by rw [passed, begun, starved]; rfl
  have state : d.begun.passed.state = d.begun.state := by rw [passed]
  have faulted_iff : d.begun.passed.state = .faulted ↔ d.state = .faulted := by rw [state, begun_faulted_iff]
  have notices : u.speechNotices ch d.begun.passed = if overloads then [.loadState .overloaded] else [] := by
    rw [State.speechNotices, State.missNotices, ← ite_and]
    exact if_congr (by rw [overloads_iff, ne_eq, faulted_iff, and_assoc]) rfl rfl
  obtain ⟨keeps', others', due', link', _, history'⟩ := told_frame (startNotices ch d ++ u.speechNotices ch d.begun.passed)
    (u.speechServed ch d.begun.passed) (State.speechEngines ch rate e.payload u d.begun.passed) hd
  rw [← run] at keeps' others' due' link' history'
  have called' : ((u.startPlayout ch).playHead ch).chan[ch] = some (u.speechServed ch d.begun.passed) := by
    rw [run]
    exact setCtx_chan_self ch _ _
  obtain ⟨keeps, others⟩ := moveWindow_frame c.retryingKinds called' (((setDue_frame _ ch s).1.trans judged.keeps).trans keeps')
    (((setDue_frame _ ch s).2.trans judged.others).trans others')
  have served := speechServed_touches (s := u) (ch := ch) (c := d.begun.passed)
  have moved := moved_touches (c := u.speechServed ch d.begun.passed) c.retryingKinds
  have whole := moveWindow_eq c.retryingKinds called'
  have eng : (((u.startPlayout ch).playHead ch).moveWindow ch c.retryingKinds).eng =
      State.speechEngines ch rate e.payload u d.begun.passed := by
    rw [whole, run]
    rfl
  refine ⟨_, _, event, moveWindow_called _ called', keeps, others, ?_, ?_, ?_, ?_, ?_, ?_, ?_, ?_, ?_, fun faulted => ?_,
    fun serving => ⟨?_, ?_, fun held => ?_, fun unheld => ?_⟩⟩
  · rw [whole]
    exact due'.trans judged.due
  · rw [whole]
    exact link'.trans judged.link
  · rw [moved, served]
    exact queue
  · rw [moved, served]
    exact expected
  · rw [moved, served, passed]
    exact begun_playout.trans (if_pos starts)
  · rw [moved, served, passed, begun]
  · rw [moved]
    exact speechServed_missing.trans (congrArg Stats.missing stats)
  · rw [whole]
    exact history'
  · rw [whole, run, started, notices]
    rfl
  · have faulted := faulted_iff.mpr faulted
    rw [eng, moved, speechServed_of_faulted faulted, speechEngines_of_faulted faulted, stats]
    exact ⟨rfl, rfl, rfl⟩
  · rw [moved]
    refine (speechServed_state.trans (state.trans begun_state)).trans ?_
    have kept : d.state ≠ .closing := by
      rw [source]
      exact fun closing => open_ (starvedIn_closing_iff.mp closing)
    have waits : d.playout = .waiting ↔ d.starts = true :=
      ⟨fun w => starts.resolve_left (by simp [w]), fun w => (starts_iff.mp w).1⟩
    cases hs : d.state with
    | closing => exact absurd hs kept
    | faulted => exact absurd hs serving
    | aligning => exact if_congr (by simp [waits]) rfl rfl
    | active => simp
  · by_cases held : u.eng.holdsJob ch .decode = true
    · rw [moved, speechServed_of_held (faulted_iff.not.mpr serving) held, ← stats]
      rfl
    · rw [moved, speechServed_of_free (faulted_iff.not.mpr serving) (Bool.eq_false_iff.mpr held)]
      exact congrArg Stats.discardedInFault stats
  · rw [eng, moved, speechServed_of_held (faulted_iff.not.mpr serving) held,
      speechEngines_of_held (faulted_iff.not.mpr serving) held, ← missWin, ← stats]
    exact ⟨rfl, rfl, rfl, rfl, rfl, rfl⟩
  · have now : u.hw.periodStart = s.hw.periodStart := congrArg HighwayBlock.periodStart judged.hw
    rw [eng, moved, speechServed_of_free (faulted_iff.not.mpr serving) unheld,
      speechEngines_of_free (faulted_iff.not.mpr serving) unheld, now]
    refine ⟨rfl, congrArg Stats.decMiss stats, ?_, fun n hn => ?_, fun busy => ?_⟩
    · unfold State.submitted
      split <;> rfl
    · have read : ((u.setCtx ch { d.begun.passed with outcome := .decode .pending }).codecRead ch) = u.codecRead ch := by
        rw [State.codecRead, State.codecRead, setCtx_chan_self, hd, passed, begun]
        rfl
      have there := submitted_of_idle (s := u.setCtx ch { d.begun.passed with outcome := .decode .pending })
        (j := decodeJobAt ch rate e.payload s.hw.periodStart) (now := s.hw.periodStart) hn
      rw [there, ← read]
      exact ⟨rfl, rfl⟩
    · have there := submitted_of_busy (s := u.setCtx ch { d.begun.passed with outcome := .decode .pending })
        (j := decodeJobAt ch rate e.payload s.hw.periodStart) (now := s.hw.periodStart) busy
      rw [there]
      exact ⟨rfl, rfl⟩

/-! ## The supervision of a boundary -/

/-- Whatever its head, a boundary hands a context on to its window that has the faults, the starvation count and the window
position it had after the judgement, and nothing is left to do before. -/
theorem startPlayout_playHead_called {u : State} {ch : Chan} {d : Context} (h : u.chan[ch] = some d)
    (idle : u.eng.queue = [] ∨ u.eng.idleEngine = none) :
    ((u.startPlayout ch).playHead ch).rest = u.rest ∧ ∃ f, ((u.startPlayout ch).playHead ch).chan[ch] = some f ∧
      f.faults = d.faults ∧ f.starvation = d.starvation ∧ f.window = d.window := by
  have begun := begun_touches (c := d)
  by_cases speech : ∃ e, d.begun.headTaken = some e ∧ e.kind = .speech
  · obtain ⟨e, taken, kind⟩ := speech
    rw [startPlayout_playHead_of_speech h idle taken kind]
    refine ⟨?_, _, setCtx_chan_self ch _ _, ?_⟩
    · rw [notifyAll_eq]
      rfl
    · rw [speechServed_touches, passed_touches, begun]
      exact ⟨rfl, rfl, rfl⟩
  · have quiet : ∀ e, d.begun.headTaken = some e → e.kind ≠ .speech := fun e taken kind => speech ⟨e, taken, kind⟩
    rw [startPlayout_playHead_of_quiet h quiet]
    refine ⟨?_, _, setCtx_chan_self ch _ _, ?_⟩
    · rw [notifyAll_eq]
      rfl
    · rw [played_touches, begun]
      exact ⟨rfl, rfl, rfl⟩

theorem nodup_retryingKinds (c : Context) : c.retryingKinds.Nodup := nodup_filter_allKinds _

theorem mem_retryingKinds (c : Context) (k : FaultKind) : k ∈ c.retryingKinds ↔ (c.fault k).state = .retrying := by
  simp [Context.retryingKinds, mem_allKinds]

theorem lowered_state (r : FaultRecord) : r.lowered.state = r.state ∧ r.lowered.present = r.present := by
  unfold FaultRecord.lowered
  split <;> exact ⟨rfl, rfl⟩

/-- Settles O26. -/
theorem downlinkBoundarySupervises : Obligations.DownlinkBoundarySupervises := by
  intro s ch c idle due called
  refine ⟨fun closing => ?_, ?_⟩
  · have called' : ({ s with due := s.due.filter fun x => x ≠ .downlink ch } : State).chan[ch] = some c := called
    rw [exec_downlinkBoundary_eq idle due, State.downlinkBoundary, called']
    simp only [closing, modCtx_eq ch c _ _ called']
    rfl
  · intro open_ free starved
    have called' : ({ s with due := s.due.filter fun x => x ≠ .downlink ch } : State).chan[ch] = some c := called
    have hd : (State.raiseStarvation ch { s with due := s.due.filter fun x => x ≠ .downlink ch }).chan[ch] =
        some (s.starvedIn c) := raiseStarvation_called called'
    obtain ⟨event, judged, _⟩ := downlinkBoundary_after_judgement idle due called open_ rfl hd
    obtain ⟨rest, f, hf, faults, starvation, window⟩ := startPlayout_playHead_called hd (raiseStarvation_idle called' free)
    have starvedRest := rest.trans (judged.rest.trans idle)
    have touched := starvedIn_touches (s := s) (c := c)
    have fault : ∀ k, f.fault k = (s.starvedIn c).fault k := fun k => congrArg (fun v => v[k.index]) faults
    have moved : ∀ k, ((f.moved c.retryingKinds).fault k).state = ((s.starvedIn c).fault k).state ∧
        ((f.moved c.retryingKinds).fault k).present = ((s.starvedIn c).fault k).present := fun k => by
      rw [fault_moved (nodup_retryingKinds c), fault]
      split
      · exact lowered_state _
      · exact ⟨rfl, rfl⟩
    have touchedWindow := moved_touches (c := f) c.retryingKinds
    have left : c.window = f.window := by rw [window, touched]; rfl
    refine ⟨_, _, event, moveWindow_called _ hf, ?_, ?_, ?_, fun k other => ?_, fun k retrying => ?_, ?_, ?_, ?_⟩
    · rw [touchedWindow, starvation, touched]
      rfl
    · rw [(moved _).2]
      exact judgedIn_present (c := c.hungrier) open_
    · rw [(moved _).1]
      exact judgedIn_state (c := c.hungrier) open_
    · rw [(moved k).1, (moved k).2, State.starvedIn, fault_judgedIn_other other]
      exact ⟨rfl, rfl⟩
    · have known : ∃ present, (s.starvedIn c).fault k = { c.fault k with present := present } := by
        by_cases starvation : k = .starvation
        · subst starvation
          exact ⟨_, fault_judgedIn_known (c := c.hungrier) open_ (fun none => by cases retrying.symm.trans none)⟩
        · exact ⟨_, fault_judgedIn_other starvation⟩
      obtain ⟨present, known⟩ := known
      rw [fault_moved (nodup_retryingKinds c), if_pos ((mem_retryingKinds c k).mpr retrying), fault, known,
        FaultRecord.lowered, if_pos retrying]
    · rw [touchedWindow, left]
      cases f.window <;> rfl
    · rw [moveWindow_eq _ hf, starvedRest, left, windowRest]
      by_cases last : f.window = some 49
      · simp [last]
      · simp [last]
    · rw [moveWindow_eq _ hf, starvedRest, windowRest]
      simp only [← mem_expiredKinds]
      cases (f.moved c.retryingKinds).expiredKinds with
      | nil => simp
      | cons k ks => simp

end Sys2Proof.Machine
end

section
/-! PROOF. The output block start of a channel: the block chosen and its first sample sent (R33 to R37): O30 and O31. -/

namespace Sys2Proof.Machine

/-! ## The code of a period -/

section code
variable {s : State} {ch : Chan} {c : Context}

theorem blockIndex_eq (now : Phase) : c.blockIndex now = (now.val + 160 - (c.phiDn.val + 32) % 160) % 160 := by
  simp only [Context.blockIndex, phaseDist, phaseAdd, Fin.val_ofNat]

theorem isIdleCode_iff (m : OutputMode) : m.isIdleCode = true ↔ m = .idle ∨ m = .muted := by
  cases m <;> simp [OutputMode.isIdleCode]

theorem codeNow_eq (law : Law) (now : Phase) : c.codeNow law now =
    if c.output = .idle ∨ c.output = .muted then idleCode law
    else compress law (gainSample c.gainNow (c.block.getD ((now.val + 160 - (c.phiDn.val + 32) % 160) % 160) 0)) := by
  rw [Context.codeNow, blockIndex_eq]
  exact if_congr (isIdleCode_iff c.output) rfl rfl

/-- A clamp of the code of this period is counted (R49). -/
theorem countSent_satDn (now : Phase) : (c.countSent now).stats.satDn =
    if ¬ (c.output = .idle ∨ c.output = .muted) ∧
      gainClamps c.gainNow (c.block.getD ((now.val + 160 - (c.phiDn.val + 32) % 160) % 160) 0) = true
    then min 65535 (c.stats.satDn + 1) else c.stats.satDn := by
  rw [← blockIndex_eq, Context.countSent, apply_ite Context.stats, apply_ite Stats.satDn]
  exact if_congr (by rw [Bool.and_eq_true, Bool.not_eq_true', ← isIdleCode_iff, Bool.not_eq_true]) rfl rfl

/-- A code sent writes the two counts of clamps alone. -/
theorem countSent_touches (now : Phase) : c.countSent now = { c with
    satDnWin := (c.countSent now).satDnWin
    stats := { c.stats with satDn := (c.countSent now).stats.satDn } } := by
  unfold Context.countSent
  split <;> rfl

theorem playsAs_countSent (now : Phase) {d : Context} (h : PlaysAs c d) : PlaysAs (c.countSent now) d := by
  rw [countSent_touches]
  exact h

/-- The timeslots after a channel's code has been driven (R37). -/
def State.drivenBy (s : State) (c : Context) : Vector (Option Byte) 256 :=
  s.hw.driven.set (slotNo c.highway c.timeslot)
    (if s.hw.sync = .lost then none else some (c.codeNow (s.lawOf c) s.hw.c))

theorem sendCode_eq (h : s.chan[ch] = some c) : s.sendCode ch =
    { s.setCtx ch (c.countSent s.hw.c) with hw := { s.hw with driven := s.drivenBy c } } := by
  simp only [State.sendCode, h]
  rfl

end code

/-! ## The choice of a block -/

section choice
variable {c : Context}

theorem noiseBlock_eq : c.noiseBlock = asNoise c := rfl

theorem concealStep_eq : c.concealStep = asConcealStep c := by
  unfold Context.concealStep asConcealStep
  simp only [Bool.or_eq_true, decide_eq_true_eq]

theorem countedConcealStep_eq : c.countedConcealStep = { asConcealStep c with
    stats := if (asConcealStep c).output = .concealed then { c.stats with concealed := min 65535 (c.stats.concealed + 1) }
      else c.stats } := by
  have stats : (asConcealStep c).stats = c.stats := by
    unfold asConcealStep
    split <;> rfl
  unfold Context.countedConcealStep
  dsimp only
  rw [concealStep_eq, ← stats]
  split <;> rfl

theorem playsAs_countedConcealStep : PlaysAs c.countedConcealStep (asConcealStep c) := by
  rw [countedConcealStep_eq]
  exact ⟨rfl, rfl, rfl, rfl, rfl, rfl, rfl⟩

/-- The block of a missing or NO_DATA frame, as the output mode calls for it (R35). -/
theorem playsAs_missingBlock : PlaysAs c.missingBlock (match c.output with
    | .noise => asNoise c
    | .idle => c
    | .muted => c
    | .decoded => asConcealStep c
    | .concealed => asConcealStep c) := by
  unfold Context.missingBlock
  cases c.output with
  | noise | idle | muted => exact ⟨rfl, rfl, rfl, rfl, rfl, rfl, rfl⟩
  | decoded | concealed => exact playsAs_countedConcealStep

theorem missingBlock_concealed : c.missingBlock.stats.concealed =
    if c.missingBlock.output = .concealed then min 65535 (c.stats.concealed + 1) else c.stats.concealed := by
  have counted : c.countedConcealStep.stats.concealed =
      if c.countedConcealStep.output = .concealed then min 65535 (c.stats.concealed + 1) else c.stats.concealed := by
    rw [countedConcealStep_eq]
    dsimp only
    split <;> rfl
  unfold Context.missingBlock
  split
  · rfl
  · next h => rw [if_neg (by simp [h])]
  · next h => rw [if_neg (by simp [h])]
  all_goals exact counted

/-- An outcome that leaves no block to play: the block is that of a missing frame in ACTIVE (R35). -/
def BoundaryOutcome.Lacks (o : BoundaryOutcome) : Prop :=
  o = .noData ∨ o = .missing ∨ o = .none ∨ o = .decode .withdrawn

/-- A context given another block: the codec state that plays, and the count of concealed blocks, alone may differ. -/
def Context.Reblocked (c d : Context) : Prop := d = { c with
  output := d.output, concealIndex := d.concealIndex, block := d.block, lastGood := d.lastGood, decY := d.decY
  noiseGen := d.noiseGen, stats := { c.stats with concealed := d.stats.concealed } }

theorem PlaysAs.trans {a b d : Context} (h : PlaysAs a b) (k : PlaysAs b d) : PlaysAs a d := by
  obtain ⟨output, index, block, good, decY, level, gen⟩ := h
  obtain ⟨output', index', block', good', decY', level', gen'⟩ := k
  exact ⟨output.trans output', index.trans index', block.trans block', good.trans good', decY.trans decY', level.trans level',
    gen.trans gen'⟩

theorem reblocked_conceal : c.Reblocked c.concealStep := by
  rw [concealStep_eq]
  unfold asConcealStep Context.Reblocked
  split <;> rfl

theorem reblocked_missing : c.Reblocked c.missingBlock := by
  have counted : c.Reblocked c.countedConcealStep := by
    rw [countedConcealStep_eq]
    unfold asConcealStep Context.Reblocked
    split
    · dsimp only
      split <;> rfl
    · dsimp only
      split <;> rfl
  unfold Context.missingBlock
  cases c.output with
  | noise | idle | muted => rfl
  | decoded | concealed => exact counted

theorem reblocked_active : c.Reblocked c.activeBlock := by
  unfold Context.activeBlock
  split
  · rfl
  · exact reblocked_conceal
  · exact reblocked_conceal
  · exact reblocked_missing
  · rfl
  · exact reblocked_missing
  · exact reblocked_missing
  · exact reblocked_missing
  · rfl

theorem reblocked_faulted (out : OutDn) : c.Reblocked (c.faultedBlock out) := by
  cases out with
  | idle | noise => rfl
  | hold => exact reblocked_conceal

/-- The block chosen for a channel, before the outcome is consumed (R34, R35). -/
def Context.chosen (out : OutDn) (c : Context) : Context :=
  match c.state with
  | .aligning | .closing => { c with output := .idle }
  | .faulted => c.faultedBlock out
  | .active => c.activeBlock

theorem chooseBlock_eq (out : OutDn) : c.chooseBlock out = { c.chosen out with outcome := .none } := rfl

theorem reblocked_chosen (out : OutDn) : c.Reblocked (c.chosen out) := by
  unfold Context.chosen
  split
  · rfl
  · rfl
  · exact reblocked_faulted out
  · exact reblocked_active

theorem chosen_of_active (out : OutDn) (h : c.state = .active) : c.chosen out = c.activeBlock := by rw [Context.chosen, h]

theorem chosen_of_faulted (out : OutDn) (h : c.state = .faulted) : c.chosen out = c.faultedBlock out := by
  rw [Context.chosen, h]

theorem playsAs_refl : PlaysAs c c := ⟨rfl, rfl, rfl, rfl, rfl, rfl, rfl⟩

theorem playsAs_chosen_idle (out : OutDn) (h : c.state = .aligning ∨ c.state = .closing) :
    PlaysAs (c.chosen out) { c with output := .idle } := by
  have idle : c.chosen out = { c with output := .idle } := by
    rcases h with h | h <;> rw [Context.chosen, h]
  rw [idle]
  exact playsAs_refl

/-- The block of a FAULTED channel is what OUT_DN calls for (R34). -/
theorem playsAs_chosen_faulted {out : OutDn} (h : c.state = .faulted) :
    (out = .idle → PlaysAs (c.chosen out) { c with output := .idle }) ∧
    (out = .noise → PlaysAs (c.chosen out) (asNoise c)) ∧ (out = .hold → PlaysAs (c.chosen out) (asConcealStep c)) := by
  rw [chosen_of_faulted out h]
  refine ⟨fun e => ?_, fun e => ?_, fun e => ?_⟩
  · rw [e]
    exact playsAs_refl
  · rw [e]
    exact playsAs_refl
  · rw [e, Context.faultedBlock, concealStep_eq]
    exact playsAs_refl

/-- The block of a missing frame is chosen for an outcome that leaves no block (R35). -/
theorem activeBlock_of_lacks (h : c.outcome = .noData ∨ c.outcome = .missing ∨ c.outcome = .none ∨
    c.outcome = .decode .withdrawn) : c.activeBlock = c.missingBlock := by
  rcases h with h | h | h | h <;> rw [Context.activeBlock, h]

theorem conceal_concealed : c.concealStep.stats.concealed = c.stats.concealed := by
  rw [concealStep_eq]
  unfold asConcealStep
  split <;> rfl

theorem activeBlock_concealed_of_not (h : ¬ (c.outcome = .noData ∨ c.outcome = .missing ∨ c.outcome = .none ∨
    c.outcome = .decode .withdrawn)) : c.activeBlock.stats.concealed = c.stats.concealed := by
  unfold Context.activeBlock
  split
  · rfl
  · exact conceal_concealed
  · exact conceal_concealed
  · next e => exact absurd e (by tauto)
  · rfl
  · next e => exact absurd e (by tauto)
  · next e => exact absurd e (by tauto)
  · next e => exact absurd e (by tauto)
  · rfl

/-- A concealed block is counted where a missing or NO_DATA frame gives it, in ACTIVE (R35). -/
theorem chosen_concealed (out : OutDn) : (c.chosen out).stats.concealed =
    if c.state = .active ∧ (c.outcome = .noData ∨ c.outcome = .missing ∨ c.outcome = .none ∨
      c.outcome = .decode .withdrawn) ∧ (c.chosen out).output = .concealed
    then min 65535 (c.stats.concealed + 1) else c.stats.concealed := by
  by_cases active : c.state = .active
  · rw [chosen_of_active out active]
    by_cases lacks : c.outcome = .noData ∨ c.outcome = .missing ∨ c.outcome = .none ∨ c.outcome = .decode .withdrawn
    · rw [activeBlock_of_lacks lacks, missingBlock_concealed]
      exact if_congr (by simp [active, lacks]) rfl rfl
    · rw [if_neg fun w => lacks w.2.1]
      exact activeBlock_concealed_of_not lacks
  · rw [if_neg fun w => active w.1]
    unfold Context.chosen
    split
    · rfl
    · rfl
    · cases out with
      | idle | noise => rfl
      | hold => exact conceal_concealed
    · next h => exact absurd h active

end choice

/-! ## The event -/

section event
variable {s : State} {ch : Chan} {c : Context}

theorem exec_outputBlockStart_eq (idle : s.rest = []) (due : .blockStart ch ∈ s.due) :
    exec (.outputBlockStart ch) s =
      .next (State.outputBlockStart ch { s with due := s.due.filter fun x => x ≠ .blockStart ch }) := by
  change Host.Outcome.next (s.finish.commandEvent (.blockStart ch)) = _
  rw [finish_of_rest_nil s idle, commandEvent_of_due _ s due]
  rfl

/-- The context after an output block start: the block chosen, and its first sample sent. -/
def State.blockIn (s : State) (c : Context) : Context := (c.chooseBlock (s.profileOf c).outDn).countSent s.hw.c

theorem outputBlockStart_of_chosen (h : s.chan[ch] = some c) (notPending : c.outcome ≠ .decode .pending) :
    s.outputBlockStart ch = { s.setCtx ch (s.blockIn c) with
      hw := { s.hw with driven := s.drivenBy (c.chooseBlock (s.profileOf c).outDn) } } := by
  have calm : s.missAtBlockStart ch = s := by
    rw [State.missAtBlockStart, h]
    exact if_neg notPending
  rw [State.outputBlockStart, State.chooseOutput, calm, modCtx_eq ch c s _ h, sendCode_eq (setCtx_chan_self ch _ s),
    setCtx_setCtx]
  rfl

/-- What is driven at a block start, and the clamps counted, in terms of the context that starts the block (R37, R49). -/
theorem blockIn_sent {d : Context} (reblocked : c.Reblocked d) :
    s.drivenBy { d with outcome := .none } = s.hw.driven.set (slotNo c.highway c.timeslot)
      (if s.hw.sync = .lost then none
        else some (if d.output = .idle ∨ d.output = .muted then idleCode (s.lawOf c)
          else compress (s.lawOf c) (gainSample c.gainNow
            (d.block.getD ((s.hw.c.val + 160 - (c.phiDn.val + 32) % 160) % 160) 0)))) ∧
    ((({ d with outcome := .none } : Context).countSent s.hw.c).stats.satDn =
      if ¬ (d.output = .idle ∨ d.output = .muted) ∧
        gainClamps c.gainNow (d.block.getD ((s.hw.c.val + 160 - (c.phiDn.val + 32) % 160) % 160) 0) = true
      then min 65535 (c.stats.satDn + 1) else c.stats.satDn) := by
  have gain : d.gainNow = c.gainNow := by rw [reblocked]
  have phase : d.phiDn = c.phiDn := by rw [reblocked]
  have highway : d.highway = c.highway := by rw [reblocked]
  have timeslot : d.timeslot = c.timeslot := by rw [reblocked]
  have satDn : d.stats.satDn = c.stats.satDn := by rw [reblocked]
  refine ⟨?_, ?_⟩
  · rw [State.drivenBy, codeNow_eq, State.lawOf, State.lawOf]
    dsimp only
    rw [gain, phase, highway, timeslot]
  · rw [← gain, ← phase, ← satDn]
    exact countSent_satDn s.hw.c

end event

/-- Settles O30. -/
theorem outputBlockStartChooses : Obligations.OutputBlockStartChooses := by
  intro s ch c idle due called notPending out law
  have called' : ({ s with due := s.due.filter fun x => x ≠ .blockStart ch } : State).chan[ch] = some c := called
  have reblocked := reblocked_chosen (c := c) out
  have state : (c.chosen out).state = c.state := by rw [reblocked]
  obtain ⟨driven, satDn⟩ := blockIn_sent (s := s) reblocked
  have sent := countSent_touches (c := c.chooseBlock out) s.hw.c
  have plays : ∀ {d : Context}, PlaysAs (c.chosen out) d → PlaysAs ((c.chooseBlock out).countSent s.hw.c) d :=
    fun h => playsAs_countSent s.hw.c h
  have output : ((c.chooseBlock out).countSent s.hw.c).output = (c.chosen out).output := (plays playsAs_refl).1
  have block : ((c.chooseBlock out).countSent s.hw.c).block = (c.chosen out).block := (plays playsAs_refl).2.2.1
  refine ⟨_, (c.chooseBlock out).countSent s.hw.c, exec_outputBlockStart_eq idle due, ?_, ?_, ?_, ?_, fun h => ?_, fun h => ?_,
    fun h => ?_, ?_, ?_⟩
  · rw [outputBlockStart_of_chosen called' notPending]
    rfl
  · rw [outputBlockStart_of_chosen called' notPending]
    rfl
  · rw [sent]
    rfl
  · rw [sent]
    exact state
  · exact plays (playsAs_chosen_idle out h)
  · obtain ⟨asIdle, noise, hold⟩ := playsAs_chosen_faulted (out := out) h
    exact ⟨fun e => plays (asIdle e), fun e => plays (noise e), fun e => plays (hold e)⟩
  · have active := chosen_of_active out h
    have as : ∀ {d : Context}, PlaysAs c.activeBlock d → PlaysAs ((c.chooseBlock out).countSent s.hw.c) d :=
      fun k => plays (active ▸ k)
    refine ⟨fun b e => as ?_, fun e => as ?_, fun e => as ?_, fun e => as ?_, fun e => as ?_⟩
    · rw [Context.activeBlock, e]
      exact playsAs_refl
    · rw [Context.activeBlock, e, concealStep_eq]
      exact playsAs_refl
    · rw [Context.activeBlock, e]
      exact playsAs_refl
    · rw [Context.activeBlock, e]
      exact playsAs_refl
    · rw [activeBlock_of_lacks e]
      exact playsAs_missingBlock
  · rw [output, sent]
    exact chosen_concealed out
  · intro idle x
    have sample : x = (c.chosen out).block.getD ((s.hw.c.val + 160 - (c.phiDn.val + 32) % 160) % 160) 0 := by
      rw [← block]
    have silent : idle ↔ (c.chosen out).output = .idle ∨ (c.chosen out).output = .muted := by rw [← output]
    refine ⟨?_, ?_⟩
    · rw [outputBlockStart_of_chosen called' notPending, sample]
      refine driven.trans ?_
      simp only [silent]
      rfl
    · rw [sample]
      refine satDn.trans ?_
      simp only [silent]

/-! ## A DECODE job not completed at its block start -/

section pending
variable {s : State} {ch : Chan} {c : Context}

/-- The context of a channel whose DECODE job has missed its block start (R36, R126). -/
def Context.decodeMissed (c : Context) : Context := ({ c with outcome := .decode .missed } : Context).missed .decode

/-- The state once the missed DECODE job has left and been counted (R36, R127). -/
def State.missedDecode (ch : Chan) (c : Context) (s : State) : State :=
  { (s.notifyAll s.missNotices).setCtx ch c.decodeMissed with
    eng := { s.eng.removeWaiting ch .decode with load := s.loadAfterMiss } }

theorem missAtBlockStart_of_pending (h : s.chan[ch] = some c) (pending : c.outcome = .decode .pending) :
    s.missAtBlockStart ch = s.missedDecode ch c := by
  have called : ({ s with eng := s.eng.removeWaiting ch .decode } : State).chan[ch] = some c := h
  have missed : ({ c with outcome := c.outcome.miss } : Context) = { c with outcome := .decode .missed } := by
    rw [pending]
    rfl
  rw [State.missAtBlockStart, h]
  dsimp only
  rw [if_pos pending, State.missJob, modCtx_eq ch c _ _ called, missed, countMiss_eq .decode (setCtx_chan_self ch _ _), setCtx_notifyAll, setCtx_setCtx,
    notifyAll_eq, State.missedDecode, notifyAll_eq]
  rfl

theorem outputBlockStart_of_pending (h : s.chan[ch] = some c) (pending : c.outcome = .decode .pending) :
    s.outputBlockStart ch = { (s.missedDecode ch c).setCtx ch (s.blockIn c.decodeMissed) with
      hw := { (s.missedDecode ch c).hw with
        driven := s.drivenBy (c.decodeMissed.chooseBlock (s.profileOf c).outDn) } } := by
  have called : (s.missedDecode ch c).chan[ch] = some c.decodeMissed := setCtx_chan_self ch _ _
  rw [State.outputBlockStart, State.chooseOutput, missAtBlockStart_of_pending h pending]
  dsimp only
  rw [modCtx_eq ch c.decodeMissed _ _ called, sendCode_eq (setCtx_chan_self ch _ _), setCtx_setCtx, State.missedDecode,
    notifyAll_eq]
  rfl

theorem decodeMissed_conceals : c.decodeMissed.activeBlock = asConcealStep c.decodeMissed := concealStep_eq

theorem playsAs_asConcealStep_decodeMissed : PlaysAs (asConcealStep c.decodeMissed) (asConcealStep c) := by
  unfold asConcealStep
  by_cases muted : c.output = .muted ∨ c.concealLimit < c.concealIndex + 1
  · have same : c.decodeMissed.output = .muted ∨ c.decodeMissed.concealLimit < c.decodeMissed.concealIndex + 1 := muted
    rw [if_pos muted, if_pos same]
    exact playsAs_refl
  · have same : ¬ (c.decodeMissed.output = .muted ∨ c.decodeMissed.concealLimit < c.decodeMissed.concealIndex + 1) := muted
    rw [if_neg muted, if_neg same]
    exact playsAs_refl

end pending

theorem keeps_driven {s t : State} (h : KeepsSetting s t) (v : Vector (Option Byte) 256) :
    KeepsSetting s { t with hw := { t.hw with driven := v } } := by
  obtain ⟨hw, tagMap, profiles, settings, mode, freeCount, pending, ahead, state, receiving, length, format, unknown,
    accepting, rx, buffer, overrun, proc, answer, newLine⟩ := h
  exact ⟨by rw [hw], tagMap, profiles, settings, mode, freeCount, pending, ahead, state, receiving, length, format, unknown,
    accepting, rx, buffer, overrun, proc, answer, newLine⟩

/-- Settles O31. -/
theorem outputBlockStartMissesPendingDecode : Obligations.OutputBlockStartMissesPendingDecode := by
  intro s ch c idle due called pending out law overloads
  have called' : ({ s with due := s.due.filter fun x => x ≠ .blockStart ch } : State).chan[ch] = some c := called
  have whole := outputBlockStart_of_pending called' pending
  have reblocked := reblocked_chosen (c := c.decodeMissed) out
  obtain ⟨driven, satDn⟩ := blockIn_sent (s := s) reblocked
  have sent := countSent_touches (c := c.decodeMissed.chooseBlock out) s.hw.c
  have plays : ∀ {d : Context}, PlaysAs (c.decodeMissed.chosen out) d →
      PlaysAs ((c.decodeMissed.chooseBlock out).countSent s.hw.c) d := fun h => playsAs_countSent s.hw.c h
  have output : ((c.decodeMissed.chooseBlock out).countSent s.hw.c).output = (c.decodeMissed.chosen out).output :=
    (plays playsAs_refl).1
  have block : ((c.decodeMissed.chooseBlock out).countSent s.hw.c).block = (c.decodeMissed.chosen out).block :=
    (plays playsAs_refl).2.2.1
  have notices : s.missNotices = if overloads then [.loadState .overloaded] else [] := if_congr overloads_iff rfl rfl
  have state : (c.decodeMissed.chosen out).state = c.state := by rw [reblocked]; rfl
  have decMiss : (c.decodeMissed.chosen out).stats.decMiss = min 65535 (c.stats.decMiss + 1) := by rw [reblocked]; rfl
  have missWin : (c.decodeMissed.chosen out).missWin = min 50 (c.missWin + 1) := by rw [reblocked]; rfl
  have concealed : (c.decodeMissed.chosen out).stats.concealed = c.stats.concealed := by
    rw [chosen_concealed, if_neg fun w => by simp [Context.decodeMissed, Context.missed] at w]
    rfl
  obtain ⟨frame, _, due', link, rest, history⟩ := told_frame s.missNotices c.decodeMissed
    { s.eng.removeWaiting ch .decode with load := s.loadAfterMiss } called'
  have keeps : KeepsSetting s (State.outputBlockStart ch { s with due := s.due.filter fun x => x ≠ .blockStart ch }) := by
    rw [whole]
    have missed : (State.missedDecode ch c { s with due := s.due.filter fun x => x ≠ .blockStart ch }).chan[ch] =
        some c.decodeMissed := setCtx_chan_self ch _ _
    have kept := (setDue_frame _ ch s).1.trans frame
    exact keeps_driven (kept.trans (supervised_setCtx ch (s.blockIn c.decodeMissed) _ missed).keeps) _
  have eng : (State.outputBlockStart ch { s with due := s.due.filter fun x => x ≠ .blockStart ch }).eng =
      { s.eng.removeWaiting ch .decode with load := s.loadAfterMiss } := by
    rw [whole]
    rfl
  refine ⟨_, (c.decodeMissed.chooseBlock out).countSent s.hw.c, exec_outputBlockStart_eq idle due, ?_, keeps, ?_, ?_, ?_, ?_,
    ?_, ?_, ?_, ?_, ?_, ?_, ?_, ?_, ?_, ?_, ?_, fun h => ?_, fun h => ?_, fun h => ?_, ?_⟩
  · rw [whole, setCtx_chan, State.missedDecode, setCtx_chan, notifyAll_eq, Vector.set_set]
    rfl
  · rw [whole]
    exact link
  · rw [whole]
    exact history
  · rw [whole]
    exact due'
  · rw [whole]
    exact rest.trans idle
  · rw [eng]
    rfl
  · rw [eng]
    rfl
  · rw [eng]
    rfl
  · rw [eng]
    rfl
  · rw [eng]
    change (if s.overloads then LoadState.overloaded else s.eng.load.state) = _
    by_cases limit : s.settings.loadLimit ≤ s.eng.load.misses + 1
    · rw [if_pos limit]
      cases hl : s.eng.load.state with
      | overloaded => simp
      | normal => rw [if_pos (overloads_iff.mpr ⟨hl, limit⟩)]
    · rw [if_neg limit, if_neg fun w => limit (overloads_iff.mp w).2]
  · rw [sent]
    rfl
  · rw [sent]
    exact decMiss
  · rw [sent]
    exact missWin
  · rw [whole, setCtx_ctl, State.missedDecode, setCtx_ctl, ← notices]
    exact notifyAll_ctl_congr s.missNotices rfl rfl rfl
  · rw [sent]
    exact state
  · rw [sent]
    exact concealed
  · have conceals : c.decodeMissed.chosen out = asConcealStep c.decodeMissed :=
      (chosen_of_active (c := c.decodeMissed) out h).trans decodeMissed_conceals
    exact plays (conceals ▸ playsAs_asConcealStep_decodeMissed)
  · exact plays (playsAs_chosen_idle (c := c.decodeMissed) out h)
  · obtain ⟨asIdle, noise, hold⟩ := playsAs_chosen_faulted (c := c.decodeMissed) (out := out) h
    exact ⟨fun e => plays (asIdle e), fun e => plays (noise e),
      fun e => plays ((hold e).trans playsAs_asConcealStep_decodeMissed)⟩
  · intro idle x
    have sample : x = (c.decodeMissed.chosen out).block.getD ((s.hw.c.val + 160 - (c.phiDn.val + 32) % 160) % 160) 0 := by
      rw [← block]
    have silent : idle ↔ (c.decodeMissed.chosen out).output = .idle ∨ (c.decodeMissed.chosen out).output = .muted := by
      rw [← output]
    refine ⟨?_, ?_⟩
    · rw [whole, sample]
      refine driven.trans ?_
      simp only [silent]
      rfl
    · rw [sample]
      refine satDn.trans ?_
      simp only [silent]
      rfl

end Sys2Proof.Machine
end

section
/-! PROOF. The uplink boundary of a channel (R10 to R14, R22, R107, R144): O20, O21 and O22. -/

namespace Sys2Proof.Machine

/-! ## The event -/

section event
variable {s : State} {ch : Chan} {c : Context}

theorem exec_uplinkBoundary_eq (idle : s.rest = []) (due : .uplink ch ∈ s.due) :
    exec (.uplinkBoundary ch) s = .next (State.uplinkBoundary ch { s with due := s.due.filter fun x => x ≠ .uplink ch }) := by
  change Host.Outcome.next (s.finish.commandEvent (.uplink ch)) = _
  rw [finish_of_rest_nil s idle, commandEvent_of_due _ s due]
  rfl

/-- The context whose rate has been settled at a boundary (R10 step 1). -/
def State.settledIn (s : State) (c : Context) : Context := c.settleRate (s.profileOf c).rateSet

theorem uplinkBoundary_of_serving (h : s.chan[ch] = some c) (serving : c.state = .aligning ∨ c.state = .active) :
    s.uplinkBoundary ch = State.uplinkFinish ch ((s.setCtx ch (s.settledIn c)).submit
      ((s.settledIn c).encodeJobAt ch s.hw.periodStart) s.hw.periodStart) := by
  have stays : c.state ≠ .faulted := fun faulted => by rcases serving with w | w <;> cases faulted.symm.trans w
  have same : (s.setCtx ch (s.settledIn c)).chan[ch] = some (s.settledIn c) := setCtx_chan_self ch _ s
  have run : (s.setCtx ch (s.settledIn c)).uplinkByState ch = (s.setCtx ch (s.settledIn c)).submit
      ((s.settledIn c).encodeJobAt ch s.hw.periodStart) s.hw.periodStart := by
    have state : (s.settledIn c).state = c.state := rfl
    unfold State.uplinkByState
    rw [same]
    dsimp only
    rw [state]
    rcases serving with w | w <;> rw [w] <;> rfl
  unfold State.uplinkBoundary
  rw [h]
  dsimp only
  rw [if_neg stays]
  exact congrArg (State.uplinkFinish ch) run

theorem uplinkBoundary_of_faulted (h : s.chan[ch] = some c) (faulted : c.state = .faulted) : s.uplinkBoundary ch =
    State.echoFaultFrame ch (State.uplinkFinish ch (State.faultUplink ch (s.setCtx ch (s.settledIn c)))) := by
  have same : (s.setCtx ch (s.settledIn c)).chan[ch] = some (s.settledIn c) := setCtx_chan_self ch _ s
  have run : (s.setCtx ch (s.settledIn c)).uplinkByState ch = (s.setCtx ch (s.settledIn c)).faultUplink ch := by
    have state : (s.settledIn c).state = .faulted := faulted
    unfold State.uplinkByState
    rw [same]
    dsimp only
    rw [state]
  unfold State.uplinkBoundary
  rw [h]
  dsimp only
  rw [if_pos faulted]
  exact congrArg (fun t => State.echoFaultFrame ch (State.uplinkFinish ch t)) run

theorem uplinkBoundary_of_closing (h : s.chan[ch] = some c) (closing : c.state = .closing) : s.uplinkBoundary ch =
    State.uplinkFinish ch (State.completeClose ch (s.setCtx ch (s.settledIn c))) := by
  have same : (s.setCtx ch (s.settledIn c)).chan[ch] = some (s.settledIn c) := setCtx_chan_self ch _ s
  have run : (s.setCtx ch (s.settledIn c)).uplinkByState ch = (s.setCtx ch (s.settledIn c)).completeClose ch := by
    have state : (s.settledIn c).state = .closing := closing
    unfold State.uplinkByState
    rw [same]
    dsimp only
    rw [state]
  unfold State.uplinkBoundary
  rw [h]
  dsimp only
  rw [if_neg (by simp [closing])]
  exact congrArg (State.uplinkFinish ch) run

end event

/-! ## ALIGNING and ACTIVE -/

/-- The context after a pending adjust, or the next length of 160, as R108 says. -/
def Context.adjusted (c : Context) : Context :=
  match c.adjust with
  | none => { c with blockLen := 160 }
  | some a => { c with
      adjust := none
      upEcho := a.token
      phiUp := match a.dir with
        | .advance => phaseSub c.phiUp a.k
        | .retard => phaseAdd c.phiUp a.k
      blockLen := match a.dir with
        | .advance => 160 - a.k
        | .retard => 160 + a.k
      stats := { c.stats with adjustsApplied := min 65535 (c.stats.adjustsApplied + 1) } }

theorem nextBlock_settled (c : Context) (rs : RateSet) : (c.settleRate rs).nextBlock =
    { c.adjusted with upRate := rs.settle (c.rateReq.getD c.upRate), rateReq := none, nUp := 0 } := by
  unfold Context.nextBlock Context.applyAdjust Context.adjusted
  have same : (c.settleRate rs).adjust = c.adjust := rfl
  rw [same]
  cases c.adjust with
  | none => rfl
  | some a =>
    dsimp only
    cases a.dir <;> rfl

/-- Settles O20. -/
theorem uplinkBoundarySubmitsEncode : Obligations.UplinkBoundarySubmitsEncode := by
  intro s ch c idle due called serving free rate j moved
  have called' : ({ s with due := s.due.filter fun x => x ≠ .uplink ch } : State).chan[ch] = some c := called
  have short : jobDurationNs .encode rate ≤ 4000000 := by cases rate <;> decide
  have submitted := submit_eq (s := State.setCtx ch (s.settledIn c) { s with due := s.due.filter fun x => x ≠ .uplink ch })
    (j := j) (now := s.hw.periodStart) free (Nat.add_le_add_left short _)
  have whole : State.uplinkBoundary ch { s with due := s.due.filter fun x => x ≠ .uplink ch } = _ :=
    (uplinkBoundary_of_serving called' serving).trans ((congrArg (State.uplinkFinish ch) submitted).trans
      (uplinkFinish_eq (setCtx_chan_self ch _ _)))
  have next : (s.settledIn c).nextBlock = { moved with upRate := rate, rateReq := none, nUp := 0 } :=
    nextBlock_settled c _
  refine ⟨_, (exec_uplinkBoundary_eq idle due).trans (congrArg _ whole), rfl, ?_, ?_, ?_, fun e he => ?_, fun busy => ?_⟩
  · rw [next]
    exact Vector.set_set ..
  · have phase : (s.settledIn c).nextBlock.phiUp = moved.phiUp := by rw [next]
    rw [← phase]
    unfold State.submitted
    split <;> rfl
  · unfold State.submitted
    split <;> rfl
  · have there := submitted_of_idle (s := State.setCtx ch (s.settledIn c) { s with due := s.due.filter fun x => x ≠ .uplink ch })
      (j := j) (now := s.hw.periodStart) he
    have read : State.codecRead (State.setCtx ch (s.settledIn c) { s with due := s.due.filter fun x => x ≠ .uplink ch }) ch =
        s.codecRead ch := by
      rw [State.codecRead, State.codecRead, setCtx_chan_self, called]
      rfl
    rw [there, ← read]
    exact ⟨rfl, rfl⟩
  · have there := submitted_of_busy (s := State.setCtx ch (s.settledIn c) { s with due := s.due.filter fun x => x ≠ .uplink ch })
      (j := j) (now := s.hw.periodStart) busy
    rw [there]
    exact ⟨rfl, rfl⟩

/-! ## CLOSING -/

section closing
variable {s : State} {ch : Chan} {c : Context}

/-- In CLOSING a placement finds nothing (R146). -/
theorem placeFrame_of_closing {kind : FrameKind} {rate : Option Rate} {payload : List Byte} (h : s.chan[ch] = some c)
    (closing : c.state = .closing) :
    s.placeFrame ch kind rate payload = s.placed ch c (s.fillFrame c kind rate payload) := by
  cases finds : s.findsDrift c with
  | false => exact placeFrame_of_not_finds h finds
  | true =>
    rw [placeFrame_of_finds h finds]
    have shut : (s.placedIn ch c).state = .closing := closing
    have kept := placed_chan (s := s) (ch := ch) (c := c) (f := s.fillFrame c kind rate payload)
    rw [State.findPresent, kept]
    exact if_pos shut

theorem answerClose_of_holding {g : Byte} (st : Stats) (h : s.ctl.proc = .holding g ch) : (s.answerClose ch st).ctl =
    { s.ctl with
      proc := .idle
      answer := some ⟨0x8A, g, 0 :: st.bytes⟩
      tx := if s.ctl.tx = .idle then .answer else s.ctl.tx } := by
  rw [State.answerClose, h]
  dsimp only
  rw [if_pos rfl, answer_ctl]
  rfl

theorem drainToSetup_ctl : s.drainToSetup.ctl = if s.mode = .drain ∧ (∀ d : Chan, s.chan[d] = none)
    then s.ctl.generate ⟨s.settings.levels[(4 : Fin 7)], s.hw.cycle, .configMode .setup⟩ else s.ctl := by
  unfold State.drainToSetup
  simp only [Bool.and_eq_true, decide_eq_true_eq, openChannels_isEmpty_iff]
  split <;> rfl

/-- Every channel is FREE once one of them is, where the others were. -/
theorem all_free_set_iff (v : Vector (Option Context) 256) (ch : Chan) :
    (∀ d : Chan, (v.set ch none)[d] = none) ↔ ∀ d : Chan, d ≠ ch → v[d] = none := by
  refine ⟨fun all d other => ?_, fun rest d => ?_⟩
  · exact (set_getElem_fin_other v ch d none other).symm.trans (all d)
  · by_cases self : d = ch
    · rw [self]
      exact set_getElem_fin_self _ _ _
    · exact (set_getElem_fin_other v ch d none self).trans (rest d self)

theorem mem_withoutCycle (d : Due) (ds : List Due) :
    d ∈ withoutCycle ch ds ↔ d ∈ ds ∧ d ≠ .uplink ch ∧ d ≠ .downlink ch ∧ d ≠ .blockStart ch := by
  simp [withoutCycle, and_assoc]

end closing

theorem closed_ctl {s : State} {ch : Chan} {d : Context} {g : Byte} (h : s.ctl.proc = .holding g ch) :
    let answered : ControlLine := { s.ctl with
      proc := .idle
      answer := some ⟨0x8A, g, 0 :: d.stats.bytes⟩
      tx := if s.ctl.tx = .idle then .answer else s.ctl.tx }
    (s.closed ch d).ctl = if s.mode = .drain ∧ (∀ e : Chan, e ≠ ch → s.chan[e] = none)
      then answered.generate ⟨s.settings.levels[(4 : Fin 7)], s.hw.cycle, .configMode .setup⟩ else answered := by
  intro answered
  have answer : ((s.release ch d).answerClose ch d.stats).ctl = answered := answerClose_of_holding (s := s.release ch d) d.stats h
  have rest := answerClose_touches ch d.stats (s.release ch d)
  rw [State.closed, drainToSetup_ctl, answer, rest]
  exact if_congr (and_congr_right' (all_free_set_iff s.chan ch)) rfl rfl

/-- Settles O22. -/
theorem uplinkBoundaryCompletesClose : Obligations.UplinkBoundaryCompletesClose := by
  intro s ch c g idle due called closing holding n st drained answered
  have called' : ({ s with due := s.due.filter fun x => x ≠ .uplink ch } : State).chan[ch] = some c := called
  have same := setCtx_chan_self ch (s.settledIn c) { s with due := s.due.filter fun x => x ≠ .uplink ch }
  have placed := placeFrame_of_closing (kind := .endCall) (rate := none) (payload := []) same closing
  generalize hp : State.placed ch (s.settledIn c) (s.fillFrame c .endCall none [])
    (State.setCtx ch (s.settledIn c) { s with due := s.due.filter fun x => x ≠ .uplink ch }) = p
  have placed' : State.placeFrame ch .endCall none []
      (State.setCtx ch (s.settledIn c) { s with due := s.due.filter fun x => x ≠ .uplink ch }) = p := placed.trans hp
  have there : p.chan[ch] = some ((s.settledIn c).afterPlacement (s.link.overruns ch)) := by
    rw [← hp]
    exact placed_chan
  have whole : State.uplinkBoundary ch { s with due := s.due.filter fun x => x ≠ .uplink ch } =
      p.closed ch ((s.settledIn c).afterPlacement (s.link.overruns ch)) := by
    have complete := completeClose_eq (s := State.setCtx ch (s.settledIn c)
      { s with due := s.due.filter fun x => x ≠ .uplink ch }) (ch := ch) (by rw [placed']; exact there)
    refine (uplinkBoundary_of_closing called' closing).trans ((congrArg _ (complete.trans ?_)).trans (uplinkFinish_of_free ?_))
    · rw [placed']
    · rw [closed_chan]
      exact set_getElem_fin_self _ _ _
  have stats : ((s.settledIn c).afterPlacement (s.link.overruns ch)).stats = st := by
    rw [Context.afterPlacement, overruns_eq]
    rfl
  have touched := closed_touches ch ((s.settledIn c).afterPlacement (s.link.overruns ch)) p
  have ctl := closed_ctl (s := p) (d := (s.settledIn c).afterPlacement (s.link.overruns ch)) (g := g) (by rw [← hp]; exact holding)
  have last : (p.mode = .drain ∧ ∀ e : Chan, e ≠ ch → p.chan[e] = none) ↔ drained := by
    rw [← hp]
    refine and_congr_right' (forall₂_congr fun e other => ?_)
    have kept : (State.placed ch (s.settledIn c) (s.fillFrame c .endCall none [])
      (State.setCtx ch (s.settledIn c) { s with due := s.due.filter fun x => x ≠ .uplink ch })).chan[e] = s.chan[e] :=
      (set_getElem_fin_other _ ch e _ other).trans (setCtx_chan_other ch _ _ other)
    rw [kept]
  have link : p.link = s.link.place ch (s.fillFrame c .endCall none []) := by rw [← hp]; rfl
  refine ⟨_, (exec_uplinkBoundary_eq idle due).trans (congrArg _ whole), ?_, ?_, ?_, ?_, ?_, ?_, fun e => ?_, ?_, ?_, ?_,
    fun w => ⟨?_, ?_⟩, fun w => ⟨?_, ?_⟩, ?_, ?_, ?_, ?_, fun d => ⟨?_, ?_⟩⟩
  · rw [closed_chan, ← hp]
    exact (Vector.set_set ..).trans (Vector.set_set ..)
  · rw [touched, ← hp]
    rfl
  · rw [touched, ← hp]
    rfl
  · rw [touched]
    exact (congrArg LinkPort.slots link).trans (place_slots ..)
  · rw [touched]
    exact (congrArg LinkPort.txQueue link).trans (place_txQueue ..)
  · rw [touched, ← hp]
    rfl
  · rw [touched, ← hp]
    exact dropChannel_engine ch s.eng e
  · rw [touched, ← hp]
    rfl
  · rw [touched, ← hp]
    rfl
  · rw [touched, ← hp]
    rfl
  · rw [closed_mode, if_pos ((and_congr_right' (all_free_set_iff p.chan ch)).mpr (last.mpr w))]
  · rw [ctl, if_pos (last.mpr w), stats, ← hp]
    rfl
  · rw [closed_mode, if_neg fun k => w (last.mp ((and_congr_right' (all_free_set_iff p.chan ch)).mp k)), ← hp]
    rfl
  · rw [ctl, if_neg fun k => w (last.mp k), stats, ← hp]
    rfl
  · rw [touched, ← hp]
    rfl
  · rw [touched, ← hp]
    rfl
  · rw [touched, ← hp]
    rfl
  · rw [touched, ← hp]
    rfl
  · rw [touched, ← hp]
    refine (mem_withoutCycle d _).trans ?_
    change d ∈ s.due.filter (fun x => x ≠ .uplink ch) ∧ _ ↔ _
    rw [List.mem_filter, decide_eq_true_eq, and_assoc, and_self_left]
  · rw [touched, ← hp]
    exact mem_withoutCycle d _

/-! ## FAULTED -/

section faulted
variable {s : State} {ch : Chan} {c : Context}

theorem fillFrame_settled (kind : FrameKind) (payload : List Byte) :
    s.fillFrame (s.settledIn c) kind none payload = s.fillFrame c kind none payload := rfl

/-- The context after a frame has been placed, with DRIFT found where the placement finds it. -/
def State.afterFrame (ch : Chan) (s : State) (c : Context) : Context :=
  if s.findsDrift c then s.foundIn .drift (s.placedIn ch c) else s.placedIn ch c

/-- The reports of a placement: that of the DRIFT it may find. -/
def State.frameReports (ch : Chan) (s : State) (c : Context) : List FaultReport :=
  if s.findsDrift c then s.raisedBy .drift ch c else []

/-- A placement in FAULTED, where no finding drops jobs. -/
theorem placeFrame_of_faulted {kind : FrameKind} {rate : Option Rate} {payload : List Byte} (h : s.chan[ch] = some c)
    (faulted : c.state = .faulted) : s.placeFrame ch kind rate payload =
      { (s.reported (s.frameReports ch c)).setCtx ch (s.afterFrame ch c) with
        link := s.link.place ch (s.fillFrame c kind rate payload) } := by
  unfold State.frameReports State.afterFrame
  cases finds : s.findsDrift c with
  | false => exact placeFrame_of_not_finds h finds
  | true =>
    have stays : (s.placed ch c (s.fillFrame c kind rate payload)).fallsIn .drift (s.placedIn ch c) = false :=
      Bool.eq_false_iff.mpr fun falls => by
        obtain ⟨serving, _⟩ := fallsBy_iff.mp falls
        rcases serving with w | w <;> cases w.symm.trans faulted
    rw [placeFrame_of_finds h finds, findPresent_eq ch .drift _ placed_chan, stays]
    simp only [State.placed, State.reported, State.setCtx, Vector.set_set]
    rfl

theorem afterFrame_of_not (h : s.findsDrift c = false) : s.afterFrame ch c = s.placedIn ch c := if_neg (by simp [h])

theorem fault_afterFrame_other {k : FaultKind} (h : k ≠ .drift) : (s.afterFrame ch c).fault k = c.fault k := by
  unfold State.afterFrame
  split
  · exact fault_found_other h
  · rfl

theorem afterFrame_touches : s.afterFrame ch c = { c with
    faults := (s.afterFrame ch c).faults
    state := (s.afterFrame ch c).state
    outcome := (s.afterFrame ch c).outcome
    upSeq := c.upSeq + 1
    drift := if c.request.isSome then min 100 (c.drift + 1) else c.drift
    stats := { c.stats with
      framesOut := min 65535 (c.stats.framesOut + 1)
      egressOverruns := if s.link.overruns ch then bump c.stats.egressOverruns else c.stats.egressOverruns } } := by
  unfold State.afterFrame
  split
  · exact found_touches
  · rfl

theorem afterFrame_state (faulted : c.state = .faulted) : (s.afterFrame ch c).state = .faulted := by
  unfold State.afterFrame
  split
  · refine (found_state (c := s.placedIn ch c) (fun w => by cases w.symm.trans faulted)).trans ?_
    split
    · rfl
    · exact faulted
  · exact faulted

/-- The link port of a channel whose fault frame has been placed and has taken the echo (R107, R143, R144). -/
def LinkPort.placeEchoed (ch : Chan) (f : Frame) (echo : Token) (lp : LinkPort) : LinkPort :=
  { lp.place ch f with slots := lp.slots.set ch (some ⟨{ f with echo := echo }, false⟩) }

theorem setEcho_place (lp : LinkPort) (f : Frame) (echo : Token) :
    (lp.place ch f).setEcho ch echo = lp.placeEchoed ch f echo := by
  have slots : (lp.place ch f).slots = lp.slots.set ch (some ⟨f, false⟩) := place_slots ..
  unfold LinkPort.setEcho LinkPort.placeEchoed
  rw [slots, set_getElem_fin_self]
  exact congrArg (fun v => { lp.place ch f with slots := v }) (Vector.set_set ..)

/-- An uplink boundary in FAULTED, as one update: the context `x` after the frame, if any, then the next block. -/
def State.faultBoundary (ch : Chan) (c x : Context) (rs : List FaultReport) (link : LinkPort) (s : State) : State :=
  { (s.reported rs).setCtx ch x.nextBlock with
    link := link
    faultFrames := s.faultFrames.set ch ((s.faultFrames[ch] + 1) % 8)
    eng := { s.eng with buckets := moveBucket (bucketOf c.phiUp) (bucketOf x.nextBlock.phiUp) s.eng.buckets } }

/-- The end of a boundary in FAULTED: the next block settled, and the echo taken where a frame was placed. -/
theorem echo_finish {t : State} {x : Context} (h : t.chan[ch] = some x) : (t.uplinkFinish ch).echoFaultFrame ch =
    { t.setCtx ch x.nextBlock with
      eng := { t.eng with buckets := moveBucket (bucketOf x.phiUp) (bucketOf x.nextBlock.phiUp) t.eng.buckets }
      link := if (t.profileOf x).outUp = .silent then t.link else t.link.setEcho ch x.nextBlock.upEcho } := by
  have profile : x.nextBlock.profile = x.profile := by
    unfold Context.nextBlock Context.applyAdjust
    split
    · rfl
    · dsimp only
      split <;> rfl
  have out : t.profileOf x.nextBlock = t.profileOf x := congrArg (fun p => t.profiles[p]) profile
  rw [uplinkFinish_eq h, State.echoFaultFrame, setCtx_chan_self]
  dsimp only
  change (if (t.profileOf x.nextBlock).outUp = .silent then _ else _) = _
  rw [out]
  split <;> rfl

theorem echo_finish_of_silent {t : State} {x : Context} (h : t.chan[ch] = some x) (silent : (t.profileOf x).outUp = .silent) :
    (t.uplinkFinish ch).echoFaultFrame ch = { t.setCtx ch x.nextBlock with
      eng := { t.eng with buckets := moveBucket (bucketOf x.phiUp) (bucketOf x.nextBlock.phiUp) t.eng.buckets } } := by
  rw [echo_finish h, if_pos silent]
  rfl

theorem echo_finish_of_framed {t : State} {x : Context} (h : t.chan[ch] = some x) (sound : (t.profileOf x).outUp ≠ .silent) :
    (t.uplinkFinish ch).echoFaultFrame ch = { t.setCtx ch x.nextBlock with
      eng := { t.eng with buckets := moveBucket (bucketOf x.phiUp) (bucketOf x.nextBlock.phiUp) t.eng.buckets }
      link := t.link.setEcho ch x.nextBlock.upEcho } := by
  rw [echo_finish h, if_neg sound]

theorem uplinkBoundary_of_silent (h : s.chan[ch] = some c) (faulted : c.state = .faulted)
    (silent : (s.profileOf c).outUp = .silent) :
    s.uplinkBoundary ch = s.faultBoundary ch c (s.settledIn c) [] s.link := by
  have same := setCtx_chan_self ch (s.settledIn c) s
  have out : ((s.setCtx ch (s.settledIn c)).profileOf (s.settledIn c)).outUp = .silent := silent
  have placed : (s.setCtx ch (s.settledIn c)).faultUplink ch =
      { s.setCtx ch (s.settledIn c) with faultFrames := s.faultFrames.set ch ((s.faultFrames[ch] + 1) % 8) } := by
    rw [State.faultUplink, same]
    dsimp only
    rw [out]
    rfl
  refine (uplinkBoundary_of_faulted h faulted).trans ((congrArg _ (congrArg _ placed)).trans ?_)
  refine (echo_finish_of_silent (x := s.settledIn c) (t := { s.setCtx ch (s.settledIn c) with
    faultFrames := s.faultFrames.set ch ((s.faultFrames[ch] + 1) % 8) }) same out).trans ?_
  simp only [State.faultBoundary, State.reported, State.setCtx, Vector.set_set]
  rfl

theorem uplinkBoundary_of_framed {kind : FrameKind} {payload : List Byte} (h : s.chan[ch] = some c) (faulted : c.state = .faulted)
    (frame : faultFrame (s.profileOf c).outUp s.faultFrames[ch] = some (kind, payload)) :
    s.uplinkBoundary ch = s.faultBoundary ch c (s.afterFrame ch (s.settledIn c)) (s.frameReports ch c)
      (s.link.placeEchoed ch (s.fillFrame c kind none payload) (s.afterFrame ch (s.settledIn c)).nextBlock.upEcho) := by
  have same := setCtx_chan_self ch (s.settledIn c) s
  have sound : (s.profileOf c).outUp ≠ .silent := fun silent => by
    rw [silent] at frame
    cases frame
  have placed : (s.setCtx ch (s.settledIn c)).faultUplink ch =
      { State.placeFrame ch kind none payload (s.setCtx ch (s.settledIn c)) with
        faultFrames := s.faultFrames.set ch ((s.faultFrames[ch] + 1) % 8) } := by
    have frame' : faultFrame ((s.setCtx ch (s.settledIn c)).profileOf (s.settledIn c)).outUp
      (s.setCtx ch (s.settledIn c)).faultFrames[ch] = some (kind, payload) := frame
    rw [State.faultUplink, same]
    dsimp only
    rw [frame']
    dsimp only
    rw [placeFrame_of_faulted same faulted]
    rfl
  have called : (State.placeFrame ch kind none payload (s.setCtx ch (s.settledIn c))).chan[ch] =
      some (s.afterFrame ch (s.settledIn c)) := by
    rw [placeFrame_of_faulted same faulted]
    exact setCtx_chan_self ch _ _
  refine (uplinkBoundary_of_faulted h faulted).trans ((congrArg _ (congrArg _ placed)).trans ?_)
  have profile : s.profileOf (s.afterFrame ch (s.settledIn c)) = s.profileOf c := by rw [afterFrame_touches]; rfl
  refine (echo_finish_of_framed (x := s.afterFrame ch (s.settledIn c))
    (t := { State.placeFrame ch kind none payload (s.setCtx ch (s.settledIn c)) with
      faultFrames := s.faultFrames.set ch ((s.faultFrames[ch] + 1) % 8) }) called ?_).trans ?_
  · rw [placeFrame_of_faulted same faulted]
    exact fun silent => sound ((congrArg Profile.outUp profile).symm.trans silent)
  · have phase : (s.afterFrame ch (s.settledIn c)).phiUp = c.phiUp := by rw [afterFrame_touches]; rfl
    rw [placeFrame_of_faulted same faulted, phase]
    simp only [State.faultBoundary, State.reported, State.setCtx, Vector.set_set, setEcho_place]
    rfl

theorem nextBlock_eq (c : Context) : c.nextBlock = { c.adjusted with nUp := 0 } := by
  unfold Context.nextBlock Context.applyAdjust Context.adjusted
  cases c.adjust with
  | none => rfl
  | some a =>
    dsimp only
    cases a.dir <;> rfl

/-- A pending adjust, or its absence, moves nothing but the block that begins, φup and the echo. -/
theorem adjusted_touches (c : Context) : c.adjusted = { c with
    adjust := none
    upEcho := (match c.adjust with
      | some a => a.token
      | none => c.upEcho)
    phiUp := c.adjusted.phiUp
    blockLen := c.adjusted.blockLen
    stats := { c.stats with adjustsApplied := c.adjusted.stats.adjustsApplied } } := by
  unfold Context.adjusted
  cases c.adjust with
  | none => rfl
  | some a => rfl

/-- The frame of a boundary in FAULTED as one update. -/
theorem faultBoundary_frame {x : Context} {rs : List FaultReport} {link : LinkPort}
    (state : link.state = s.link.state) (receiving : link.receiving = s.link.receiving)
    (length : link.errLength = s.link.errLength) (format : link.errFormat = s.link.errFormat)
    (unknown : link.errUnknownTag = s.link.errUnknownTag) (accepting : link.errNotAccepting = s.link.errNotAccepting) :
    KeepsSetting s (s.faultBoundary ch c x rs link) ∧ OthersKept ch s (s.faultBoundary ch c x rs link) := by
  have told := supervised_notifyAll ch (rs.map FaultReport.notice) s
  obtain ⟨hw, tagMap, profiles, settings, mode, freeCount, pending, ahead, _, _, _, _, _, _, rx, buffer, overrun, proc, answer,
    newLine⟩ := told.keeps
  have ctl : (s.faultBoundary ch c x rs link).ctl = (s.notifyAll (rs.map FaultReport.notice)).ctl := reported_ctl rs s
  refine ⟨⟨?_, rfl, rfl, rfl, rfl, rfl, rfl, rfl, state, receiving, length, format, unknown, accepting, by rw [ctl, rx],
    by rw [ctl, buffer], by rw [ctl, overrun], by rw [ctl, proc], by rw [ctl, answer], by rw [ctl, newLine]⟩,
    fun d other => ⟨?_, ?_⟩⟩
  · rfl
  · exact set_getElem_fin_other _ ch d _ other
  · exact set_getElem_fin_other _ ch d _ other

/-- The frame that a boundary in FAULTED places (R144). -/
def State.faultFrameOf (ch : Chan) (s : State) (c : Context) : Frame :=
  if (s.profileOf c).outUp = .sid ∧ s.faultFrames[ch] = 0 then s.fillFrame c .sid none [0] else s.fillFrame c .noData none []

/-- What a boundary in FAULTED may change in the context before the next block is settled. -/
def Context.Framed (c x : Context) : Prop := x = { c with
  faults := x.faults, outcome := x.outcome, upSeq := x.upSeq, drift := x.drift
  stats := { c.stats with framesOut := x.stats.framesOut, egressOverruns := x.stats.egressOverruns } }

theorem framed_refl (c : Context) : c.Framed c := rfl

theorem framed_afterFrame (faulted : c.state = .faulted) : c.Framed (s.afterFrame ch c) := by
  have state := (afterFrame_state (s := s) (ch := ch) faulted).trans faulted.symm
  have touched := afterFrame_touches (s := s) (ch := ch) (c := c)
  rw [state] at touched
  unfold Context.Framed
  conv_lhs => rw [touched]
  rw [afterFrame_touches]

theorem uplinkBoundary_in_faulted (h : s.chan[ch] = some c) (faulted : c.state = .faulted) :
    ((s.profileOf c).outUp = .silent → s.uplinkBoundary ch = s.faultBoundary ch c (s.settledIn c) [] s.link) ∧
    ((s.profileOf c).outUp ≠ .silent → s.uplinkBoundary ch = s.faultBoundary ch c (s.afterFrame ch (s.settledIn c))
      (s.frameReports ch c) (s.link.placeEchoed ch (s.faultFrameOf ch c) (s.afterFrame ch (s.settledIn c)).nextBlock.upEcho)) := by
  refine ⟨uplinkBoundary_of_silent h faulted, fun sound => ?_⟩
  by_cases sid : (s.profileOf c).outUp = .sid ∧ s.faultFrames[ch] = 0
  · rw [State.faultFrameOf, if_pos sid]
    refine uplinkBoundary_of_framed h faulted ?_
    rw [sid.1, sid.2]
    rfl
  · rw [State.faultFrameOf, if_neg sid]
    refine uplinkBoundary_of_framed h faulted ?_
    cases ho : (s.profileOf c).outUp with
    | noData => rfl
    | sid => exact if_neg fun zero => sid ⟨ho, zero⟩
    | silent => exact absurd ho sound

end faulted

/-- The context of a FAULTED channel, what is reported of it and the link port, once its fault frame, if any, is placed. -/
structure FaultFramed (s : State) (ch : Chan) (c x : Context) (rs : List FaultReport) (link : LinkPort) : Prop where
  framed : (s.settledIn c).Framed x
  silent : (s.profileOf c).outUp = .silent → x = s.settledIn c ∧ rs = [] ∧ link = s.link
  placed : (s.profileOf c).outUp ≠ .silent → x = s.afterFrame ch (s.settledIn c) ∧ rs = s.frameReports ch c ∧
    link = s.link.placeEchoed ch (s.faultFrameOf ch c) x.nextBlock.upEcho

theorem faultFramed {s : State} {ch : Chan} {c : Context} (h : s.chan[ch] = some c) (faulted : c.state = .faulted) :
    ∃ x rs link, FaultFramed s ch c x rs link ∧ s.uplinkBoundary ch = s.faultBoundary ch c x rs link := by
  obtain ⟨silently, framed⟩ := uplinkBoundary_in_faulted h faulted
  by_cases silent : (s.profileOf c).outUp = .silent
  · exact ⟨_, _, _, ⟨framed_refl _, fun _ => ⟨rfl, rfl, rfl⟩, fun w => absurd silent w⟩, silently silent⟩
  · exact ⟨_, _, _, ⟨framed_afterFrame faulted, fun w => absurd w silent, fun _ => ⟨rfl, rfl, rfl⟩⟩, framed silent⟩

section framed
variable {s : State} {ch : Chan} {c x : Context} {rs : List FaultReport} {link : LinkPort}

theorem FaultFramed.frame (h : FaultFramed s ch c x rs link) :
    KeepsSetting s (s.faultBoundary ch c x rs link) ∧ OthersKept ch s (s.faultBoundary ch c x rs link) := by
  by_cases silent : (s.profileOf c).outUp = .silent
  · obtain ⟨_, _, rfl⟩ := h.silent silent
    exact faultBoundary_frame rfl rfl rfl rfl rfl rfl
  · obtain ⟨_, _, rfl⟩ := h.placed silent
    exact faultBoundary_frame (place_state ..) (place_receiving ..) (place_errLength ..) (place_errFormat ..)
      (place_errUnknownTag ..) (place_errNotAccepting ..)

/-- What the boundary leaves in the context beside the frame's own fields. -/
theorem FaultFramed.next (h : FaultFramed s ch c x rs link) : x.nextBlock = { x with
    rateReq := none
    upRate := (s.profileOf c).rateSet.settle (c.rateReq.getD c.upRate)
    nUp := 0
    adjust := none
    upEcho := (match c.adjust with
      | some a => a.token
      | none => c.upEcho)
    phiUp := c.adjusted.phiUp
    blockLen := c.adjusted.blockLen
    stats := { x.stats with adjustsApplied := c.adjusted.stats.adjustsApplied } } := by
  have framed := h.framed
  unfold Context.Framed at framed
  rw [nextBlock_eq, Context.adjusted, Context.adjusted]
  have adjust : x.adjust = c.adjust := by rw [framed]; rfl
  rw [framed]
  have same : (s.settledIn c).adjust = c.adjust := rfl
  dsimp only
  rw [same]
  cases c.adjust with
  | none => rfl
  | some a => rfl

end framed

/-- Settles O21. -/
theorem uplinkBoundaryInFaulted : Obligations.UplinkBoundaryInFaulted := by
  intro s ch c idle due called faulted out echo f finds reports
  have called' : ({ s with due := s.due.filter fun x => x ≠ .uplink ch } : State).chan[ch] = some c := called
  obtain ⟨x, rs, link, framed, whole⟩ := faultFramed called' faulted
  obtain ⟨keeps, others⟩ := framed.frame
  have same := framed.framed
  unfold Context.Framed at same
  have next := framed.next
  have finds_iff : finds ↔ out ≠ .silent ∧ s.findsDrift c = true := and_congr_right' (findsDrift_iff s c).symm
  have told : rs = reports := by
    by_cases silent : out = .silent
    · obtain ⟨_, none, _⟩ := framed.silent silent
      rw [none]
      exact (if_neg fun w => w.1 silent).symm
    · obtain ⟨_, placed, _⟩ := framed.placed silent
      rw [placed]
      exact if_congr (by rw [finds_iff]; exact ⟨fun w => ⟨silent, w⟩, fun w => w.2⟩) rfl rfl
  have kinds : ∀ k, x.nextBlock.fault k = x.fault k := fun k => by
    rw [next]
    rfl
  refine ⟨_, x.nextBlock, (exec_uplinkBoundary_eq idle due).trans (congrArg _ whole), set_getElem_fin_self _ _ _,
    (setDue_frame _ ch s).1.trans keeps, (setDue_frame _ ch s).2.trans others, rfl, idle, ?_, ?_, ?_, rfl, ?_, ?_, ?_, ?_,
    fun empty => ?_, fun a pending => ?_, ?_, ?_, ?_, ?_, ?_, rfl, rfl, rfl, rfl, ?_, ?_, fun k other => ?_, fun quiet => ?_,
    fun found => ?_, fun silent => ?_, fun sound => ?_⟩
  · rw [next]
    rfl
  · rw [next]
  · rw [next, same]
    exact faulted
  · rw [next]
  · rw [next, same]
    rfl
  · rw [next] <;> rfl
  · rw [next]
  · rw [next, Context.adjusted, empty, same]
    exact ⟨rfl, rfl, rfl⟩
  · rw [next, Context.adjusted, pending]
    exact ⟨rfl, rfl, rfl⟩
  · rw [next, same]
    rfl
  · rw [next, same]
    rfl
  · rw [next, same]
    rfl
  · rw [next, same]
    rfl
  · rw [next, same]
    exact playsAs_refl
  · rw [← told, notifyAll_ctl]
    rfl
  · rw [← told]
    rfl
  · refine (kinds k).trans ?_
    by_cases silent : out = .silent
    · obtain ⟨placed, _, _⟩ := framed.silent silent
      rw [placed]
      rfl
    · obtain ⟨placed, _, _⟩ := framed.placed silent
      rw [placed]
      exact fault_afterFrame_other other
  · refine (kinds .drift).trans ?_
    by_cases silent : out = .silent
    · obtain ⟨placed, _, _⟩ := framed.silent silent
      rw [placed]
      rfl
    · obtain ⟨placed, _, _⟩ := framed.placed silent
      have none : s.findsDrift c = false := Bool.eq_false_iff.mpr fun w => quiet (finds_iff.mpr ⟨silent, w⟩)
      rw [placed]
      exact (congrArg (fun y => Context.fault y .drift) (afterFrame_of_not
        (s := { s with due := s.due.filter fun x => x ≠ .uplink ch }) (c := s.settledIn c) none)).trans rfl
  · obtain ⟨silent, drift⟩ := finds_iff.mp found
    obtain ⟨placed, _, _⟩ := framed.placed silent
    rw [kinds, placed]
    have finding : State.afterFrame ch { s with due := s.due.filter fun x => x ≠ .uplink ch } (s.settledIn c) =
        s.foundIn .drift (s.placedIn ch (s.settledIn c)) := if_pos drift
    have open_ : (s.placedIn ch (s.settledIn c)).state ≠ .closing := fun w => by cases faulted.symm.trans w
    rw [show State.settledIn { s with due := s.due.filter fun x => x ≠ .uplink ch } c = s.settledIn c from rfl, finding]
    exact ⟨found_present open_, found_judged open_⟩
  · obtain ⟨placed, _, port⟩ := framed.silent silent
    rw [next, placed]
    exact ⟨port, rfl, rfl, rfl, rfl⟩
  · obtain ⟨placed, _, port⟩ := framed.placed sound
    have fields : x = _ := placed.trans afterFrame_touches
    have overruns := overruns_eq s.link ch c.stats.egressOverruns
    have link_eq : State.link (State.faultBoundary ch c x rs link { s with due := s.due.filter fun x => x ≠ .uplink ch }) =
        s.link.placeEchoed ch (s.faultFrameOf ch c) echo := by
      have echoed : x.nextBlock.upEcho = echo := by rw [next] <;> rfl
      rw [← echoed]
      exact port
    have frame : { s.faultFrameOf ch c with echo := echo } = f := apply_ite (fun y : Frame => { y with echo := echo }) _ _ _
    have time : (s.faultFrameOf ch c).timeNs = (7 + f.payload.length + 12) * 80 := by
      rw [← frame]
      rfl
    rw [link_eq]
    refine ⟨?_, ?_, ?_, ?_, ?_, place_txQueue .., fun busy full head => ?_, fun busy other => ?_, fun free empty slot => ?_⟩
    · rw [LinkPort.placeEchoed, frame]
    · rw [next, fields]
      rfl
    · rw [next, fields]
      rfl
    · rw [next, fields]
      rfl
    · rw [next, fields]
      exact overruns
    · obtain ⟨aborted, sending⟩ := place_over_sent (f := s.faultFrameOf ch c) busy full head
      exact ⟨aborted, by rw [← time]; exact sending⟩
    · exact place_beside_sent busy other
    · obtain ⟨kept, sending⟩ := place_alone (f := s.faultFrameOf ch c) free empty slot
      exact ⟨kept, by rw [← time]; exact sending⟩

end Sys2Proof.Machine
end

section
/-! PROOF. Completions, dispatch and deadlines of jobs (R59 to R63, R120 to R127): O32, O33, O34 and O35. -/

namespace Sys2Proof.Machine

/-! ## Dispatch -/

section dispatch

theorem dispatchLoop_of_idle {s : State} {now n : Nat} {j : Job} {more : List Job} {e : EngineNo} (hq : s.eng.queue = j :: more)
    (he : s.eng.idleEngine = some e) :
    s.dispatchLoop now (n + 1) =
      if now + j.durationNs ≤ j.deadline
      then (State.startJob e j now { s with eng := { s.eng with queue := more } }).dispatchLoop now n
      else (State.missJob j.chan j.kind { s with eng := { s.eng with queue := more } }).dispatchLoop now n := by
  rw [State.dispatchLoop, hq, he]

/-- A dispatch takes as many heads as it can, and never more than wait. -/
theorem dispatchLoop_fuel (now : Nat) : ∀ (n m : Nat) (s : State), s.eng.queue.length ≤ n → s.eng.queue.length ≤ m →
    s.dispatchLoop now n = s.dispatchLoop now m
  | n, 0, s, _, hm => by
    have empty := List.length_eq_zero_iff.mp (Nat.le_zero.mp hm)
    rw [dispatchLoop_of_empty now _ s empty, dispatchLoop_of_empty now _ s empty]
  | 0, m, s, hn, _ => by
    have empty := List.length_eq_zero_iff.mp (Nat.le_zero.mp hn)
    rw [dispatchLoop_of_empty now _ s empty, dispatchLoop_of_empty now _ s empty]
  | n + 1, m + 1, s, hn, hm => by
    cases hq : s.eng.queue with
    | nil => rw [dispatchLoop_of_empty now _ s hq, dispatchLoop_of_empty now _ s hq]
    | cons j more =>
      rw [hq, List.length_cons, Nat.succ_le_succ_iff] at hn hm
      cases he : s.eng.idleEngine with
      | none => rw [dispatchLoop_of_busy now _ s he, dispatchLoop_of_busy now _ s he]
      | some e =>
        have fewer := (queue_missJob j.chan j.kind { s with eng := { s.eng with queue := more } }).length_le
        rw [dispatchLoop_of_idle hq he, dispatchLoop_of_idle hq he]
        exact if_congr Iff.rfl (dispatchLoop_fuel now n m _ hn hm)
          (dispatchLoop_fuel now n m _ (fewer.trans hn) (fewer.trans hm))

/-- Dispatch takes one head and then goes on (R122). -/
theorem dispatch_of_idle {s : State} {now : Nat} {j : Job} {more : List Job} {e : EngineNo} (hq : s.eng.queue = j :: more)
    (he : s.eng.idleEngine = some e) :
    s.dispatch now =
      if now + j.durationNs ≤ j.deadline
      then (State.startJob e j now { s with eng := { s.eng with queue := more } }).dispatch now
      else (State.missJob j.chan j.kind { s with eng := { s.eng with queue := more } }).dispatch now := by
  rw [State.dispatch, hq, List.length_cons, dispatchLoop_of_idle hq he]
  refine if_congr Iff.rfl rfl ?_
  exact dispatchLoop_fuel now _ _ _
    (queue_missJob j.chan j.kind { s with eng := { s.eng with queue := more } }).length_le le_rfl

end dispatch

/-! ## A placement and the engines -/

section placement
variable {s : State} {ch : Chan} {c : Context}

theorem placeFrame_called {kind : FrameKind} {rate : Option Rate} {payload : List Byte} (h : s.chan[ch] = some c) :
    (s.placeFrame ch kind rate payload).chan[ch] = some (s.afterFrame ch c) := by
  rw [placeFrame_chan h]
  exact set_getElem_fin_self _ _ _

/-- A finding changes the state of the channel exactly where it drops its jobs (R151). -/
theorem found_state_eq_iff {cls : FaultClass} {time limit : Nat} {k : FaultKind} :
    (c.found cls time limit k).state = c.state ↔ c.fallsBy cls k = false := by
  by_cases closing : c.state = .closing
  · rw [found_of_closing closing]
    exact iff_of_true rfl (Bool.eq_false_iff.mpr fun w => by
      obtain ⟨serving, _⟩ := fallsBy_iff.mp w
      rcases serving with w | w <;> cases w.symm.trans closing)
  · rw [found_state closing]
    cases falls : c.fallsBy cls k with
    | true =>
      obtain ⟨serving, severe⟩ := fallsBy_iff.mp falls
      rw [if_pos severe]
      refine iff_of_false (fun w => ?_) (by simp)
      rcases serving with v | v <;> cases w.trans v
    | false =>
      refine iff_of_true ?_ rfl
      split
      · next severe =>
        by_contra other
        refine Bool.eq_false_iff.mp falls (fallsBy_iff.mpr ⟨serving_of_ne closing fun w => other w.symm, severe⟩)
      · rfl

/-- A placement drops the jobs of a channel that it makes FAULTED, and moves the engines no further (R66, R151). -/
theorem placeFrame_eng {kind : FrameKind} {rate : Option Rate} {payload : List Byte} (h : s.chan[ch] = some c) :
    (s.placeFrame ch kind rate payload).eng =
      if (s.afterFrame ch c).state = c.state then s.eng else s.eng.dropChannel ch := by
  cases finds : s.findsDrift c with
  | false =>
    rw [placeFrame_of_not_finds h finds, afterFrame_of_not finds]
    exact (if_pos rfl).symm
  | true =>
    have context : s.afterFrame ch c = s.foundIn .drift (s.placedIn ch c) := if_pos finds
    rw [placeFrame_of_finds h finds, findPresent_eq ch .drift _ placed_chan, context]
    have same := found_state_eq_iff (c := s.placedIn ch c) (k := .drift) (cls := (s.profileOf c).cls[FaultKind.drift.index])
      (time := (s.profileOf c).retryTime[FaultKind.drift.index]) (limit := (s.profileOf c).retryLimit[FaultKind.drift.index])
    change (if (s.placedIn ch c).fallsBy (s.profileOf c).cls[FaultKind.drift.index] .drift = true then _ else _ : State).eng = _
    cases falls : (s.placedIn ch c).fallsBy (s.profileOf c).cls[FaultKind.drift.index] .drift with
    | true => exact (if_neg fun w => by rw [same.mp w] at falls; cases falls).symm
    | false => exact (if_pos (same.mpr falls)).symm

end placement

/-! ## Completions -/

section completion
variable {s u : State} {e : EngineNo} {r q : Running}

theorem exec_jobCompletion_eq (idle : s.rest = []) (running : s.eng.engines[e] = some r)
    (comes : r.done ≤ s.hw.periodStart + 125000) (hu : u = s.advanceTo r.done) (completes : u.eng.engines[e] = some q) :
    exec (.jobCompletion e) s = .next (((u.freed e).takeResult q).dispatch (max q.done u.hw.periodStart)) := by
  change Host.Outcome.next (s.finish.takeCompletion e) = _
  rw [finish_of_rest_nil s idle, State.takeCompletion, running]
  dsimp only
  rw [if_pos (show r.done ≤ s.hw.periodStart + Config.samplePeriodNs from comes), ← hu, State.completeJob, completes]
  rfl

theorem takeResult_of_marked (marked : q.marked = true) : s.takeResult q = s := if_pos marked

theorem takeResult_of_free (free : s.chan[q.job.chan] = none) : s.takeResult q = s := by
  unfold State.takeResult
  rw [free]
  exact ite_self _

/-- An ENCODE result of a FAULTED channel and a DECODE result past its block start are lost (R124). -/
theorem takeResult_of_lost {c : Context} (called : s.chan[q.job.chan] = some c)
    (lost : q.job.kind = .encode ∧ c.state = .faulted ∨ q.job.kind = .decode ∧ c.outcome ≠ .decode .pending) :
    s.takeResult q = s := by
  unfold State.takeResult
  split
  · rfl
  · rw [called]
    dsimp only
    rcases lost with ⟨encode, faulted⟩ | ⟨decode, past⟩
    · rw [encode]
      cases q.job.input with
      | samples xs => exact if_pos faulted
      | payload bs => rfl
    · rw [decode]
      cases q.job.input with
      | samples xs => rfl
      | payload bs => exact if_neg past

end completion

/-- Settles O33. -/
theorem jobCompletionKeepsDecodeOrDiscards : Obligations.JobCompletionKeepsDecodeOrDiscards := by
  intro s u e r q idle running comes hu completes now freed
  have event := exec_jobCompletion_eq idle running comes hu completes
  refine ⟨fun discards => ?_, fun bs c unmarked decode payload called pending => ?_⟩
  · have kept : State.takeResult q freed = freed := by
      rcases discards with marked | free | ⟨c, called, lost⟩
      · exact takeResult_of_marked marked
      · exact takeResult_of_free (s := freed) free
      · exact takeResult_of_lost (s := freed) called lost
    exact event.trans (congrArg (fun t => Host.Outcome.next (State.dispatch now t)) kept)
  · have called' : freed.chan[q.job.chan] = some c := called
    have taken : State.takeResult q freed = freed.setCtx q.job.chan
        { c with decY := (decodeSpeech q.job.rate q.read.decY bs).getLastD c.decY
                 outcome := .decode (.ready (decodeSpeech q.job.rate q.read.decY bs)) } := by
      unfold State.takeResult
      rw [if_neg (by simp [unmarked]), called']
      dsimp only
      rw [decode, payload]
      dsimp only
      rw [if_pos pending, modCtx_eq q.job.chan c _ _ called']
      rfl
    exact event.trans (congrArg (fun t => Host.Outcome.next (State.dispatch now t)) taken)

/-! ## Misses -/

section misses
variable {s : State} {ch : Chan} {c : Context}

/-- The context after one of the channel's jobs has been discarded as a miss (R125, R126, R127). -/
def State.missedIn (ch : Chan) (kind : JobKind) (s : State) (c : Context) : Context :=
  match kind with
  | .encode => (s.afterFrame ch c).missed .encode
  | .decode => ({ c with outcome := c.outcome.miss } : Context).missed .decode

theorem countMiss_called {x : Context} (kind : JobKind) (h : s.chan[ch] = some x) :
    (s.countMiss ch kind).chan[ch] = some (x.missed kind) := by
  rw [countMiss_eq kind h]
  exact setCtx_chan_self ch _ _

theorem missJob_called (kind : JobKind) (h : s.chan[ch] = some c) :
    (s.missJob ch kind).chan[ch] = some (s.missedIn ch kind c) := by
  cases kind with
  | encode => exact countMiss_called .encode (placeFrame_called h)
  | decode =>
    refine countMiss_called .decode ?_
    rw [modCtx_eq ch c s _ h]
    exact setCtx_chan_self ch _ s

/-- A miss is counted in the load window, whatever the job was (R127). -/
theorem missJob_misses (kind : JobKind) : (s.missJob ch kind).eng.load.misses = s.eng.load.misses + 1 := by
  cases kind with
  | encode =>
    obtain ⟨_, _, _, _, _, misses, _⟩ := countMiss_frame ch .encode (s.placeFrame ch .noData none [])
    obtain ⟨_, _, load⟩ := placeFrame_frame ch .noData none [] s
    exact misses.trans (congrArg (·.misses + 1) load)
  | decode =>
    obtain ⟨_, _, _, _, _, misses, _⟩ := countMiss_frame ch .decode (s.modCtx ch fun c => { c with outcome := c.outcome.miss })
    exact misses.trans (by rw [modCtx_eng])

theorem missJob_link_encode (h : s.chan[ch] = some c) :
    (s.missJob ch .encode).link.slots = s.link.slots.set ch (some ⟨s.fillFrame c .noData none [], false⟩) := by
  obtain ⟨_, _, link, _⟩ := countMiss_frame ch .encode (s.placeFrame ch .noData none [])
  exact (congrArg LinkPort.slots (link.trans (placeFrame_link h))).trans (place_slots ..)

/-- What a miss leaves of a context: the codec state, and the counters of the other kind. -/
theorem missedIn_codec (kind : JobKind) : (s.missedIn ch kind c).missWin = min 50 (c.missWin + 1) ∧
    (s.missedIn ch kind c).stats.encMiss = (if kind = .encode then min 65535 (c.stats.encMiss + 1) else c.stats.encMiss) ∧
    (s.missedIn ch kind c).stats.decMiss = (if kind = .decode then min 65535 (c.stats.decMiss + 1) else c.stats.decMiss) ∧
    (s.missedIn ch kind c).encY = c.encY ∧ (s.missedIn ch kind c).decY = c.decY ∧
    (s.missedIn ch kind c).hangCount = c.hangCount ∧ (s.missedIn ch kind c).lastKind = c.lastKind ∧
    (s.missedIn ch kind c).sidAge = c.sidAge := by
  cases kind with
  | encode =>
    rw [State.missedIn, afterFrame_touches]
    exact ⟨rfl, rfl, rfl, rfl, rfl, rfl, rfl, rfl⟩
  | decode => exact ⟨rfl, rfl, rfl, rfl, rfl, rfl, rfl, rfl⟩

end misses

/-- Settles O34. -/
theorem jobCompletionDispatchesHeads : Obligations.JobCompletionDispatchesHeads := by
  refine ⟨fun s u e r q idle running comes hu completes marked => ?_, fun s u tNs short idle hu => ?_, fun s now none => ?_,
    fun s now e j more hq he lower => ?_, fun s t ch kind c called ht => ?_⟩
  · have event := exec_jobCompletion_eq idle running comes hu completes
    exact event.trans (congrArg (fun t => Host.Outcome.next (State.dispatch (max q.done u.hw.periodStart) t))
      (takeResult_of_marked marked))
  · intro next
    have ended : s.atPeriodEnd tNs = s.endPeriod tNs := congrArg (State.endPeriod tNs) (finish_of_rest_nil s idle)
    have settled : s.atPeriodEnd tNs = { u with eng := u.eng.settleStarts (s.hw.periodStart + tNs) next } := by
      rw [ended, endPeriod_of_short tNs s short.le, ← hu]
      rfl
    refine ⟨_, rfl, by rw [settled]; rfl, fun e => ?_⟩
    rw [settled]
    refine (settleStarts_engine ..).trans (congrArg (fun f => Option.map f u.eng.engines[e]) (funext fun x => ?_))
    exact if_congr (by simp) rfl rfl
  · rcases none with empty | busy
    · exact dispatchLoop_of_empty now _ s empty
    · exact dispatchLoop_of_busy now _ s (idleEngine_eq_none_iff.mpr busy)
  · have next := dispatch_of_idle (now := now) hq (idleEngine_eq_some he lower)
    refine ⟨fun meets => ?_, fun late => ?_⟩
    · rw [next, if_pos (show now + j.durationNs ≤ j.deadline from meets)]
      rfl
    · rw [next, if_neg (show ¬ now + j.durationNs ≤ j.deadline from Nat.not_le.mpr late)]
  · obtain ⟨⟨keeps, _, due, rest, _⟩, others⟩ := missJob_frame ch kind s
    obtain ⟨missWin, encMiss, decMiss, _⟩ := missedIn_codec (s := s) (ch := ch) (c := c) kind
    rw [ht]
    refine ⟨_, missJob_called kind called, keeps, others, due, rest, missJob_misses kind, missWin, encMiss, decMiss,
      fun encode => ?_⟩
    rw [encode]
    exact missJob_link_encode called

/-! ## An ENCODE result kept -/

section encode
variable {rate : Rate} {xs : List Int} {rd : CodecRead}

/-- Whether a block is coded as speech: above VAD_LEVEL, in the hangover, or with DTX off (R60). -/
def CodecRead.speaks (rd : CodecRead) (xs : List Int) : Prop :=
  rd.vadLevel < activity (xs.drop 1) ∨ 0 < rd.hangCount ∨ rd.dtx = false

/-- Whether a silent block is sent as a SID: the first, and every 8th (R60). -/
def CodecRead.refreshes (rd : CodecRead) : Prop := rd.lastKind = .speech ∨ 8 ≤ rd.sidAge + 1

theorem decideKind_of_speaks (h : rd.speaks xs) :
    decideKind (activity (xs.drop 1)) rd.vadLevel rd.hangover rd.dtx ⟨rd.hangCount, rd.lastKind, rd.sidAge⟩ =
      ⟨if rd.vadLevel < activity (xs.drop 1) then rd.hangover else rd.hangCount - 1, .speech, rd.sidAge⟩ := by
  unfold decideKind
  split
  · rfl
  · next quiet =>
    split
    · rfl
    · next hung =>
      have off : rd.dtx = false := (h.resolve_left quiet).resolve_left hung
      have zero : rd.hangCount = 0 := Nat.eq_zero_of_not_pos hung
      simp [off, zero]

/-- In silence the hangover count stays 0, and a SID is due or not (R60). -/
theorem decideKind_of_silent (h : ¬ rd.speaks xs) :
    (rd.refreshes → decideKind (activity (xs.drop 1)) rd.vadLevel rd.hangover rd.dtx ⟨rd.hangCount, rd.lastKind, rd.sidAge⟩ =
      ⟨rd.hangCount - 1, .sid, 0⟩) ∧
    (¬ rd.refreshes → decideKind (activity (xs.drop 1)) rd.vadLevel rd.hangover rd.dtx
      ⟨rd.hangCount, rd.lastKind, rd.sidAge⟩ = ⟨rd.hangCount - 1, .noData, rd.sidAge + 1⟩) := by
  obtain ⟨quiet, still, on⟩ : ¬ rd.vadLevel < activity (xs.drop 1) ∧ ¬ 0 < rd.hangCount ∧ ¬ rd.dtx = false := by
    simpa [CodecRead.speaks, not_or] using h
  have zero : rd.hangCount = 0 := Nat.eq_zero_of_not_pos still
  unfold decideKind
  rw [if_neg quiet, if_neg still, if_neg (by simpa using on), zero]
  dsimp only
  by_cases spoke : rd.lastKind = .speech
  · rw [if_pos spoke]
    exact ⟨fun _ => rfl, fun none => absurd (.inl spoke) none⟩
  · rw [if_neg spoke]
    by_cases old : 8 ≤ rd.sidAge + 1
    · rw [if_pos old]
      exact ⟨fun _ => rfl, fun none => absurd (.inr old) none⟩
    · rw [if_neg old]
      exact ⟨fun due => due.elim (absurd · spoke) (absurd · old), fun _ => rfl⟩

theorem encodeJob_of_speaks (h : rd.speaks xs) : encodeJob rate xs rd =
    ⟨⟨if rd.vadLevel < activity (xs.drop 1) then rd.hangover else rd.hangCount - 1, .speech, rd.sidAge⟩,
      (encodeSpeech rate rd.encY xs).2, (encodeSpeech rate rd.encY xs).1⟩ := by
  unfold encodeJob
  dsimp only
  rw [decideKind_of_speaks h]

theorem encodeJob_of_sid (h : ¬ rd.speaks xs) (sid : rd.refreshes) : encodeJob rate xs rd =
    ⟨⟨rd.hangCount - 1, .sid, 0⟩, 0, [byte (min 63 (activity (xs.drop 1) / 32))]⟩ := by
  unfold encodeJob
  dsimp only
  rw [(decideKind_of_silent h).1 sid]
  rfl

theorem encodeJob_of_noData (h : ¬ rd.speaks xs) (noSid : ¬ rd.refreshes) : encodeJob rate xs rd =
    ⟨⟨rd.hangCount - 1, .noData, rd.sidAge + 1⟩, rd.encY, []⟩ := by
  unfold encodeJob
  dsimp only
  rw [(decideKind_of_silent h).2 noSid]

end encode

/-- A kept ENCODE result, as the placement it makes (R63, R124). -/
theorem takeResult_of_encode {s : State} {q : Running} {ch : Chan} {rate : Rate} {dl : Nat} {xs : List Int} {c : Context}
    (unmarked : q.marked = false) (job : q.job = ⟨ch, .encode, rate, dl, .samples xs⟩) (called : s.chan[ch] = some c)
    (serving : c.state ≠ .faulted) : s.takeResult q =
      (s.setCtx ch (c.takeEncode (encodeJob rate xs q.read))).placeFrame ch (encodeJob rate xs q.read).dtx.lastKind
        (if (encodeJob rate xs q.read).dtx.lastKind = .speech then some rate else none) (encodeJob rate xs q.read).payload := by
  have called' : s.chan[q.job.chan] = some c := by
    simp only [job]
    exact called
  unfold State.takeResult
  rw [if_neg (by simp [unmarked]), called', job]
  dsimp only
  rw [if_neg serving, State.keepEncode, modCtx_eq ch c s _ called]

/-- Settles O32. -/
theorem jobCompletionKeepsEncode : Obligations.JobCompletionKeepsEncode := by
  intro s u e r q ch rate dl xs c idle running comes hu completes unmarked job called serving m speech sid coded f
  have event := exec_jobCompletion_eq idle running comes hu completes
  have called' : (u.freed e).chan[ch] = some c := called
  have taken := takeResult_of_encode unmarked job called' serving
  obtain ⟨⟨keeps, _, _, _, _⟩, others, load⟩ := placeFrame_frame ch (encodeJob rate xs q.read).dtx.lastKind
    (if (encodeJob rate xs q.read).dtx.lastKind = .speech then some rate else none) (encodeJob rate xs q.read).payload
    (State.setCtx ch (c.takeEncode (encodeJob rate xs q.read)) (u.freed e))
  rw [← taken] at keeps others load
  have set := supervised_setCtx ch (c.takeEncode (encodeJob rate xs q.read)) (u.freed e) called'
  have touched := afterFrame_touches (s := State.setCtx ch (c.takeEncode (encodeJob rate xs q.read)) (u.freed e)) (ch := ch)
    (c := c.takeEncode (encodeJob rate xs q.read))
  have here : ((u.freed e).takeResult q).chan[ch] = some _ :=
    (congrArg (fun t : State => t.chan[ch]) taken).trans (placeFrame_called (setCtx_chan_self ch _ _))
  have eng : ((u.freed e).takeResult q).eng = _ := (congrArg State.eng taken).trans (placeFrame_eng (setCtx_chan_self ch _ _))
  have slots : ((u.freed e).takeResult q).link.slots = _ :=
    (congrArg (fun t : State => t.link.slots) taken).trans
      ((congrArg LinkPort.slots (placeFrame_link (setCtx_chan_self ch _ _))).trans (place_slots ..))
  have decided : (encodeJob rate xs q.read).dtx.hangCount =
        (if q.read.vadLevel < m then q.read.hangover else q.read.hangCount - 1) ∧
      (encodeJob rate xs q.read).dtx.lastKind = f.kind ∧
      (encodeJob rate xs q.read).dtx.sidAge = (if speech then q.read.sidAge else if sid then 0 else q.read.sidAge + 1) ∧
      (encodeJob rate xs q.read).encY = (if speech then coded.2 else if sid then 0 else q.read.encY) ∧
      u.fillFrame c (encodeJob rate xs q.read).dtx.lastKind
        (if (encodeJob rate xs q.read).dtx.lastKind = .speech then some rate else none) (encodeJob rate xs q.read).payload = f := by
    by_cases speaks : speech
    · have result : encodeJob rate xs q.read = _ := encodeJob_of_speaks speaks
      have sent : f = u.fillFrame c .speech (some rate) coded.1 := if_pos speaks
      rw [sent, if_pos speaks, if_pos speaks, result]
      exact ⟨rfl, rfl, rfl, rfl, rfl⟩
    · have low : ¬ q.read.vadLevel < m := fun w => speaks (.inl w)
      by_cases due : sid
      · have result : encodeJob rate xs q.read = _ := encodeJob_of_sid speaks due
        have sent : f = u.fillFrame c .sid none [byte (min 63 (m / 32))] := (if_neg speaks).trans (if_pos due)
        rw [sent, if_neg speaks, if_neg speaks, if_pos due, if_pos due, if_neg low, result]
        exact ⟨rfl, rfl, rfl, rfl, rfl⟩
      · have result : encodeJob rate xs q.read = _ := encodeJob_of_noData speaks due
        have sent : f = u.fillFrame c .noData none [] := (if_neg speaks).trans (if_neg due)
        rw [sent, if_neg speaks, if_neg speaks, if_neg due, if_neg due, if_neg low, result]
        exact ⟨rfl, rfl, rfl, rfl, rfl⟩
  obtain ⟨hangCount, lastKind, sidAge, encY, frame⟩ := decided
  have freed : KeepsSetting u (u.freed e) ∧ OthersKept ch u (u.freed e) := ⟨by constructor <;> rfl, fun _ _ => ⟨rfl, rfl⟩⟩
  refine ⟨_, _, event, here, (freed.1.trans set.keeps).trans keeps, (freed.2.trans set.others).trans others, ?_, load, ?_, ?_, ?_,
    ?_, ?_, ?_, ?_, ?_⟩
  · rw [eng]
    split
    · exact set_getElem_fin_self _ _ _
    · refine (dropChannel_engine ch _ e).trans ?_
      have gone : (State.setCtx ch (c.takeEncode (encodeJob rate xs q.read)) (u.freed e)).eng.engines[e] = none :=
        set_getElem_fin_self _ _ _
      rw [gone]
      rfl
  · rw [eng, apply_ite EngineBlock.queue]
    rfl
  · rw [touched]
    exact hangCount
  · rw [touched]
    exact lastKind
  · rw [touched]
    exact sidAge
  · rw [touched]
    exact encY
  · rw [slots]
    exact congrArg (fun y => u.link.slots.set ch (some ⟨y, false⟩)) frame
  · rw [touched]
    rfl
  · rw [touched]
    rfl

/-! ## What the part does by itself leaves nothing of an event -/

section rest
variable {s : State}

theorem takeResult_rest (r : Running) : (s.takeResult r).rest = s.rest := by
  rcases takeResult_cases r s with same | ⟨f, kind, rate, payload, placed⟩ | ⟨f, changed⟩
  · rw [same]
  · obtain ⟨frame, _, _⟩ := placeFrame_frame r.job.chan kind rate payload (s.modCtx r.job.chan f)
    rw [placed, frame.rest, modCtx_rest]
  · rw [changed, modCtx_rest]

theorem completeJob_rest (e : EngineNo) : (s.completeJob e).rest = s.rest := by
  unfold State.completeJob
  split
  · rfl
  · next r _ => exact (worked_dispatch _ _).rest.trans (takeResult_rest r)

theorem completeBefore_rest (t : Nat) : ∀ (n : Nat) (s : State), (s.completeBefore t n).rest = s.rest
  | 0, _ => rfl
  | n + 1, s => by
    unfold State.completeBefore
    split
    · rfl
    · next e _ => exact (completeBefore_rest t n _).trans (completeJob_rest e)

theorem takeDeadline_rest (now : Nat) (ch : Chan) (kind : JobKind) : (s.takeDeadline now ch kind).rest = s.rest := by
  unfold State.takeDeadline
  split
  · exact (missJob_frame ch kind _).1.rest
  · rfl

theorem foldl_rest {α : Type} (f : State → α → State) (hf : ∀ t a, (f t a).rest = t.rest) : ∀ (xs : List α) (t : State),
    (xs.foldl f t).rest = t.rest
  | [], _ => rfl
  | a :: xs, t => (foldl_rest f hf xs (f t a)).trans (hf t a)

theorem takeDeadlines_rest (now : Nat) : (s.takeDeadlines now).rest = s.rest :=
  foldl_rest _ (fun _ (j : Job) => takeDeadline_rest now j.chan j.kind) _ s

theorem takeAllDue_rest (idle : s.rest = []) : s.takeAllDue.rest = [] := by
  have taken : ∀ (ds : List Due) (t : State), t.rest = [] → (ds.foldl (fun st d => (st.takeIfDue d).finish) t).rest = [] := by
    intro ds
    induction ds with
    | nil => exact fun _ h => h
    | cons d ds ih => exact fun t _ => ih _ (finish_rest _)
  exact (takeDeadlines_rest _).trans (taken s.due s idle)

theorem advanceTo_rest (t : Nat) (idle : s.rest = []) : (s.advanceTo t).rest = [] := by
  unfold State.advanceTo
  split
  · exact (completeBefore_rest t 16 _).trans (takeAllDue_rest idle)
  · exact idle

end rest

/-! ## A deadline -/

section deadline
variable {s : State} {ch : Chan} {kind : JobKind} {c : Context}

theorem deadlineDue_of_mem {now : Nat} {j : Job} (hj : j ∈ s.eng.queue) (own : j.chan = ch) (sort : j.kind = kind)
    (come : j.deadline ≤ now) : s.deadlineDue now ch kind = true :=
  List.any_eq_true.mpr ⟨j, hj, by simp [own, sort, come]⟩

theorem deadlineDue_of_later {now : Nat} (later : ∀ x ∈ s.eng.queue, x.chan = ch → x.kind = kind → now < x.deadline) :
    s.deadlineDue now ch kind = false := by
  refine List.any_eq_false.mpr fun x hx => ?_
  simp only [Bool.and_eq_true, decide_eq_true_eq, not_and, Nat.not_le, and_imp]
  exact fun own sort => later x hx own sort

/-- The job whose deadline is taken leaves as a miss (R120, R125, R126). -/
theorem takeDeadline_of_due {now : Nat} (due : s.deadlineDue now ch kind = true) : s.takeDeadline now ch kind =
    ({ s with eng := s.eng.removeWaiting ch kind } : State).missJob ch kind := if_pos due

/-- A miss leaves the waiting and the running jobs, but for those of a channel whose placement makes it FAULTED. -/
theorem missJob_jobs (kind : JobKind) (h : s.chan[ch] = some c) :
    ((s.missedIn ch kind c).state = c.state →
      (s.missJob ch kind).eng.queue = s.eng.queue ∧ (s.missJob ch kind).eng.engines = s.eng.engines) ∧
    ((s.missedIn ch kind c).state ≠ c.state → (s.missJob ch kind).eng.queue = s.eng.queue.filter fun j => j.chan ≠ ch) := by
  cases kind with
  | decode =>
    obtain ⟨_, _, _, queue, engines, _⟩ := countMiss_frame ch .decode (s.modCtx ch fun c => { c with outcome := c.outcome.miss })
    exact ⟨fun _ => ⟨queue.trans (by rw [modCtx_eng]), engines.trans (by rw [modCtx_eng])⟩, fun other => absurd rfl other⟩
  | encode =>
    obtain ⟨_, _, _, queue, engines, _⟩ := countMiss_frame ch .encode (s.placeFrame ch .noData none [])
    have eng := placeFrame_eng (kind := .noData) (rate := none) (payload := []) h
    refine ⟨fun same => ?_, fun other => ?_⟩
    · have stays : (s.placeFrame ch .noData none []).eng = s.eng := eng.trans (if_pos same)
      exact ⟨queue.trans (congrArg EngineBlock.queue stays), engines.trans (congrArg EngineBlock.engines stays)⟩
    · have drops : (s.placeFrame ch .noData none []).eng = s.eng.dropChannel ch := eng.trans (if_neg other)
      exact queue.trans (congrArg EngineBlock.queue drops)

theorem missJob_link_decode : (s.missJob ch .decode).link = s.link := by
  obtain ⟨_, _, link, _⟩ := countMiss_frame ch .decode (s.modCtx ch fun c => { c with outcome := c.outcome.miss })
  exact link.trans (by rw [modCtx_link])

end deadline

/-- Settles O35. -/
theorem jobDeadlineIsAMiss : Obligations.JobDeadlineIsAMiss := by
  intro s u ch kind j c idle hj own sort instant waits called
  have event : exec (.jobDeadline ch kind) s =
      .next (({ u with eng := u.eng.removeWaiting ch kind } : State).missJob ch kind) := by
    change Host.Outcome.next (s.finish.takeJobDeadline ch kind) = _
    rw [finish_of_rest_nil s idle, State.takeJobDeadline]
    rcases instant with ⟨come, same⟩ | ⟨later, come, hu⟩
    · have due := deadlineDue_of_mem hj own sort come
      rw [if_pos due, takeDeadline_of_due due, same]
    · have due := deadlineDue_of_mem (now := s.hw.periodStart + 125000) hj own sort come
      have due' : u.deadlineDue (s.hw.periodStart + 125000) ch kind = true := deadlineDue_of_mem waits own sort come
      have notYet := deadlineDue_of_later later
      rw [notYet, if_neg (by simp)]
      exact congrArg Host.Outcome.next ((if_pos due).trans (by rw [← takeDeadline_of_due due', hu] <;> rfl))
  have free : u.rest = [] := by
    rcases instant with ⟨_, same⟩ | ⟨_, _, hu⟩
    · rw [same]
      exact idle
    · rw [hu]
      exact advanceTo_rest _ idle
  have called' : ({ u with eng := u.eng.removeWaiting ch kind } : State).chan[ch] = some c := called
  obtain ⟨⟨keeps, _, due, rest, _⟩, others⟩ := missJob_frame ch kind { u with eng := u.eng.removeWaiting ch kind }
  have removed : KeepsSetting u { u with eng := u.eng.removeWaiting ch kind } ∧
      OthersKept ch u { u with eng := u.eng.removeWaiting ch kind } := ⟨by constructor <;> rfl, fun _ _ => ⟨rfl, rfl⟩⟩
  obtain ⟨stays, drops⟩ := missJob_jobs kind called'
  obtain ⟨missWin, encMiss, decMiss, encY, decY, hangCount, lastKind, sidAge⟩ :=
    missedIn_codec (s := { u with eng := u.eng.removeWaiting ch kind }) (ch := ch) (c := c) kind
  refine ⟨_, _, event, missJob_called kind called', removed.1.trans keeps, removed.2.trans others, due, rest.trans free,
    fun x hx => ?_, ?_, stays, missJob_misses kind, missWin, encY, decY, hangCount, lastKind, sidAge, fun encode => ?_,
    fun decode => ?_⟩
  · have left := (queue_missJob ch kind { u with eng := u.eng.removeWaiting ch kind }).subset hx
    have stayed := (List.mem_filter.mp left).2
    rintro ⟨own, sort⟩
    simp [own, sort] at stayed
  · have without : (u.eng.removeWaiting ch kind).queue.filter (fun x => x.chan ≠ ch) = u.eng.queue.filter fun x => x.chan ≠ ch := by
      refine (List.filter_filter ..).trans (List.filter_congr fun x _ => ?_)
      by_cases own : x.chan = ch <;> simp [own]
    by_cases same : (State.missedIn ch kind { u with eng := u.eng.removeWaiting ch kind } c).state = c.state
    · rw [(stays same).1]
      exact without
    · rw [drops same, List.filter_filter]
      simpa using without
  · subst encode
    have touched := afterFrame_touches (s := { u with eng := u.eng.removeWaiting ch .encode }) (ch := ch) (c := c)
    refine ⟨missJob_link_encode called', ?_, ?_, encMiss, decMiss⟩
    · rw [State.missedIn, touched]
      rfl
    · rw [State.missedIn, touched]
      rfl
  · subst decode
    refine ⟨missJob_link_decode, fun pending => ?_, decMiss, encMiss⟩
    rw [State.missedIn, pending]
    rfl

end Sys2Proof.Machine
end

section
/-! PROOF. Arrivals and the observation window (R80 to R88, R99 to R106, R112): O39, O40 and O41. -/

namespace Sys2Proof.Machine

/-! ## What an arrival hands to the alignment unit -/

section alignment

variable (r : Received) (c : Context)

/-- A timing request that leaves the pending adjust as it is (R106, R107). -/
abbrev Context.ignores : Prop :=
  r.token = 0 ∨ (r.dir ≠ 1 ∧ r.dir ≠ 2) ∨ r.amount = 0 ∨ r.token = c.upEcho ∨
    c.adjust.map UplinkAdjust.token = some r.token

/-- An echo of the outstanding token (R105). -/
abbrev Context.acked : Prop := r.echo ≠ 0 ∧ c.request.map TimingRequest.token = some r.echo

/-- The adjust left pending by an arrival (R106, R107). -/
abbrev Context.adjustAfter : Option UplinkAdjust :=
  if c.ignores r then c.adjust else some ⟨if r.dir = 1 then .advance else .retard, min 40 r.amount, r.token⟩

/-- The rate request held after an arrival (R112). -/
abbrev Context.rateReqAfter : Option Rate :=
  match r.rateReq with
  | 1 => some .l32
  | 2 => some .l24
  | 3 => some .l16
  | _ => c.rateReq

/-- The context once an arrival's request, echo and rate request have been taken (R139). -/
def Context.aligned : Context := ((c.takeAdjust r).takeEcho r).takeRate r

theorem adjustDirOf_eq (n : Nat) :
    adjustDirOf n = if n = 1 then some .advance else if n = 2 then some .retard else none := by
  unfold adjustDirOf
  split <;> simp_all

theorem takeAdjust_of_dir {dir : AdjustDir} (h : adjustDirOf r.dir = some dir)
    (same : (if r.dir = 1 then AdjustDir.advance else .retard) = dir) (known : ¬ (r.dir ≠ 1 ∧ r.dir ≠ 2)) :
    c.takeAdjust r = { c with adjust := c.adjustAfter r } := by
  have token : (c.adjust.any fun a => a.token = r.token) = true ↔ c.adjust.map UplinkAdjust.token = some r.token := by
    cases c.adjust <;> simp
  have ignores : c.ignores r ↔ (r.token = 0 || r.amount = 0 || r.token = c.upEcho ||
      (c.adjust.any fun a => a.token = r.token)) = true := by
    simp only [Context.ignores, Bool.or_eq_true, decide_eq_true_eq, token]
    tauto
  rw [Context.takeAdjust, h, Context.adjustAfter, same]
  by_cases ignored : c.ignores r
  · simp only [if_pos ignored, if_pos (ignores.mp ignored)]
  · simp only [if_neg ignored, if_neg (mt ignores.mpr ignored)]

theorem takeAdjust_eq : c.takeAdjust r = { c with adjust := c.adjustAfter r } := by
  have dir := adjustDirOf_eq r.dir
  by_cases one : r.dir = 1
  · exact takeAdjust_of_dir r c (dir.trans (if_pos one)) (if_pos one) fun h => h.1 one
  by_cases two : r.dir = 2
  · exact takeAdjust_of_dir r c (dir.trans ((if_neg one).trans (if_pos two))) (if_neg one) fun h => h.2 two
  · have ignored : c.ignores r := Or.inr (Or.inl ⟨one, two⟩)
    rw [Context.takeAdjust, dir, if_neg one, if_neg two, Context.adjustAfter, if_pos ignored]

theorem acknowledges_iff : c.acknowledges r = true ↔ c.acked r := by
  unfold Context.acknowledges Context.acked
  cases c.request <;> simp

theorem takeRate_eq : c.takeRate r = { c with rateReq := c.rateReqAfter r } := by
  unfold Context.takeRate Context.rateReqAfter
  match r.rateReq with
  | 0 | 1 | 2 | 3 | _ + 4 => rfl

theorem aligned_of_acked (h : c.acked r) :
    c.aligned r = { c with
      request := none, drift := 0, winCount := 0, winMin := none, winLate := 0
      adjust := c.adjustAfter r, rateReq := c.rateReqAfter r }.setFault .drift
        { c.fault .drift with present := false } := by
  have echoed : ({ c with adjust := c.adjustAfter r } : Context).acknowledges r = true := (acknowledges_iff r c).mpr h
  rw [Context.aligned, takeAdjust_eq, Context.takeEcho, if_pos echoed, takeRate_eq]
  rfl

theorem aligned_of_not (h : ¬ c.acked r) :
    c.aligned r = { c with adjust := c.adjustAfter r, rateReq := c.rateReqAfter r } := by
  have silent : ¬ ({ c with adjust := c.adjustAfter r } : Context).acknowledges r = true := mt (acknowledges_iff r c).mp h
  rw [Context.aligned, takeAdjust_eq, Context.takeEcho, if_neg silent, takeRate_eq]

/-- Only the request, its drift and its window follow the echo. -/
theorem aligned_request :
    (c.aligned r).request = (if c.acked r then none else c.request) ∧
      (c.aligned r).drift = (if c.acked r then 0 else c.drift) ∧
      ((c.aligned r).fault .drift).present = (if c.acked r then false else (c.fault .drift).present) ∧
      ((c.aligned r).fault .drift).state = (c.fault .drift).state := by
  by_cases h : c.acked r
  · rw [aligned_of_acked r c h]
    simp only [if_pos h]
    rw [fault_setFault_self]
    exact ⟨rfl, rfl, rfl, rfl⟩
  · rw [aligned_of_not r c h]
    rw [if_neg h, if_neg h, if_neg h]
    exact ⟨rfl, rfl, rfl, rfl⟩

theorem aligned_window :
    (c.aligned r).winCount = (if c.acked r then 0 else c.winCount) ∧
      (c.aligned r).winMin = (if c.acked r then none else c.winMin) ∧
      (c.aligned r).winLate = (if c.acked r then 0 else c.winLate) := by
  by_cases h : c.acked r
  · rw [aligned_of_acked r c h]
    simp only [if_pos h]
    exact ⟨rfl, rfl, rfl⟩
  · rw [aligned_of_not r c h]
    rw [if_neg h, if_neg h, if_neg h]
    exact ⟨rfl, rfl, rfl⟩

/-- Taking the request, echo and rate request writes these fields alone. -/
theorem aligned_touches : ∃ rec, c.aligned r = { c with
    adjust := c.adjustAfter r, rateReq := c.rateReqAfter r, request := (c.aligned r).request,
    drift := (c.aligned r).drift, winCount := (c.aligned r).winCount, winMin := (c.aligned r).winMin,
    winLate := (c.aligned r).winLate }.setFault .drift rec := by
  by_cases h : c.acked r
  · rw [aligned_of_acked r c h]
    exact ⟨_, rfl⟩
  · rw [aligned_of_not r c h]
    exact ⟨_, (setFault_fault _ .drift).symm⟩

end alignment

/-! ## What an arrival does to the playout queue and the window -/

section queued

variable (e : QueueEntry) (v : Verdict) (c : Context)

/-- The context after the verdict's action and the arrival's count in the observation window (R87, R99). -/
def Context.judged (now : Phase) : Context :=
  match (c.takeEntry e v).countedMargin now v with
  | none => c.takeEntry e v
  | some m => (c.takeEntry e v).countArrival m

/-- An arrival writes the playout queue, its counts and the observation window alone. -/
theorem takeEntry_touches : ∃ rec, c.takeEntry e v = { c with
    queue := (c.takeEntry e v).queue, expected := (c.takeEntry e v).expected, playout := (c.takeEntry e v).playout,
    starvation := (c.takeEntry e v).starvation, tooEarlyRun := (c.takeEntry e v).tooEarlyRun,
    stats := (c.takeEntry e v).stats }.setFault .starvation rec := by
  cases v
  case first | accepted | resync => exact ⟨_, rfl⟩
  case duplicate | tooEarly | late => exact ⟨_, (setFault_fault _ .starvation).symm⟩

theorem takeEntry_window : (c.takeEntry e v).winCount = c.winCount ∧ (c.takeEntry e v).winMin = c.winMin ∧
    (c.takeEntry e v).winLate = c.winLate := by
  obtain ⟨rec, h⟩ := takeEntry_touches e v c
  rw [h]
  exact ⟨rfl, rfl, rfl⟩

theorem judged_touches (now : Phase) : ∃ rec, c.judged e v now = { c with
    queue := (c.takeEntry e v).queue, expected := (c.takeEntry e v).expected, playout := (c.takeEntry e v).playout,
    starvation := (c.takeEntry e v).starvation, tooEarlyRun := (c.takeEntry e v).tooEarlyRun,
    stats := (c.takeEntry e v).stats, winCount := (c.judged e v now).winCount, winMin := (c.judged e v now).winMin,
    winLate := (c.judged e v now).winLate }.setFault .starvation rec := by
  obtain ⟨rec, h⟩ := takeEntry_touches e v c
  refine ⟨rec, ?_⟩
  obtain ⟨count, least, late⟩ := takeEntry_window e v c
  unfold Context.judged
  split
  · rw [count, least, late]
    exact h
  · next m _ => exact congrArg (fun d : Context => { d with
      winCount := ((c.takeEntry e v).countArrival m).winCount, winMin := ((c.takeEntry e v).countArrival m).winMin,
      winLate := ((c.takeEntry e v).countArrival m).winLate }) h

theorem judged_starvation (now : Phase) :
    (c.judged e v now).fault .starvation = (c.takeEntry e v).fault .starvation := by
  unfold Context.judged
  split <;> rfl

/-- Whether the arrival is the 50th of its window (R99). -/
def Context.fillsWindow (now : Phase) : Bool :=
  ((c.takeEntry e v).countedMargin now v).isSome && c.winCount + 1 = 50

end queued

/-- A valid frame of a channel moves its context and may leave its observation window's end to do. -/
theorem route_eq {s : State} {ch : Chan} {c : Context} (hc : s.chan[ch] = some c) (r : Received) (e : QueueEntry) :
    s.route ch r e = { s with
      chan := s.chan.set ch (some ((c.aligned r).judged e ((c.aligned r).classify e.seq) s.hw.c))
      rest := s.rest ++ if (c.aligned r).fillsWindow e ((c.aligned r).classify e.seq) s.hw.c
        then [.observationWindow ch] else [] } := by
  have put (d : Context) : (s.chan.set ch (some d))[ch] = some d := by simp
  unfold State.route
  rw [hc]
  change State.countVerdict ch ((c.aligned r).classify e.seq) { s with
    chan := s.chan.set ch (some ((c.aligned r).takeEntry e ((c.aligned r).classify e.seq))) } = _
  generalize (c.aligned r).classify e.seq = v
  unfold State.countVerdict Context.judged Context.fillsWindow
  simp only [put]
  obtain ⟨count, -, -⟩ := takeEntry_window e v (c.aligned r)
  cases (c.aligned r |>.takeEntry e v).countedMargin s.hw.c v with
  | none => simp
  | some m =>
    simp only [count, Option.isSome_some, Bool.true_and, decide_eq_true_eq]
    split <;> simp

/-- A valid arrival is routed to its channel once its reception has ended (R136, R139). -/
theorem exec_arrival {s : State} {bytes : List Byte} {r : Received} {e : QueueEntry} {ch : Chan} {c : Context}
    (rest : s.rest = []) (up : s.link.state ≠ .down) (unit : checkUnit bytes = .ok (r, e)) (tag : s.tagMap[r.tag] = some ch)
    (hc : s.chan[ch] = some c) (open_ : c.state ≠ .closing) :
    exec (.linkFrameArrival bytes) s = .next { s with
      chan := s.chan.set ch (some ((c.aligned r).judged e ((c.aligned r).classify e.seq) s.hw.c))
      rest := if (c.aligned r).fillsWindow e ((c.aligned r).classify e.seq) s.hw.c then [.observationWindow ch] else []
      link := { s.link with receiving := false } } := by
  have valid : ({ s with link := { s.link with receiving := false } } : State).checkArrival bytes = .ok (ch, r, e) := by
    simp only [State.checkArrival, unit, tag, hc, if_neg open_]
  rw [exec_linkFrameArrival rest up, State.takeUnit, valid]
  refine congrArg Host.Outcome.next ((route_eq (s := { s with link := { s.link with receiving := false } }) hc r e).trans ?_)
  rw [rest, List.nil_append]

/-! ## The verdict on an arrival -/

section verdict

variable {e : QueueEntry} {v : Verdict} {c : Context} {now : Phase}

theorem judged_of_uncounted (h : (c.takeEntry e v).countedMargin now v = none) :
    c.judged e v now = c.takeEntry e v ∧ c.fillsWindow e v now = false := by
  simp only [Context.judged, Context.fillsWindow, h, Option.isSome_none, Bool.false_and, and_self]

theorem judged_of_counted {m : Int} (h : (c.takeEntry e v).countedMargin now v = some m) :
    c.judged e v now = (c.takeEntry e v).countArrival m ∧ c.fillsWindow e v now = decide (c.winCount + 1 = 50) := by
  simp only [Context.judged, Context.fillsWindow, h, Option.isSome_some, Bool.true_and, and_self]

/-- The window of an arrival that is not counted, and of one that is (R99). -/
theorem window_of_uncounted (h : (c.takeEntry e v).countedMargin now v = none) :
    (c.judged e v now).winCount = c.winCount ∧ (c.judged e v now).winMin = c.winMin ∧
      (c.judged e v now).winLate = c.winLate := by
  rw [(judged_of_uncounted h).1]
  exact takeEntry_window e v c

theorem window_of_counted {m : Int} (h : (c.takeEntry e v).countedMargin now v = some m) :
    (c.judged e v now).winCount = (if c.winCount + 1 = 50 then 0 else c.winCount + 1) ∧
      (c.judged e v now).winMin = some (match c.winMin with
        | none => m
        | some x => min x m) ∧
      (c.judged e v now).winLate = if m = -1 then min 50 (c.winLate + 1) else c.winLate := by
  obtain ⟨count, least, late⟩ := takeEntry_window e v c
  rw [(judged_of_counted h).1]
  unfold Context.countArrival
  rw [count, least, late]
  exact ⟨rfl, rfl, rfl⟩

end verdict

section fields

variable {e : QueueEntry} {v : Verdict} {c : Context} {now : Phase}

theorem judged_playout : (c.judged e v now).queue = (c.takeEntry e v).queue ∧
    (c.judged e v now).expected = (c.takeEntry e v).expected ∧
    (c.judged e v now).playout = (c.takeEntry e v).playout ∧
    (c.judged e v now).starvation = (c.takeEntry e v).starvation ∧
    (c.judged e v now).tooEarlyRun = (c.takeEntry e v).tooEarlyRun ∧
    (c.judged e v now).stats = (c.takeEntry e v).stats ∧ (c.judged e v now).started = c.started := by
  obtain ⟨rec, h⟩ := judged_touches e v c now
  rw [h]
  exact ⟨rfl, rfl, rfl, rfl, rfl, rfl, rfl⟩

/-- What every inserted frame resets and counts (R80, R82, R85, R96). -/
theorem judged_of_took {d : Context} (h : c.takeEntry e v = d.tookFrame) (count : d.stats.framesIn = c.stats.framesIn) :
    (c.judged e v now).starvation = 0 ∧ (c.judged e v now).tooEarlyRun = 0 ∧
      ((c.judged e v now).fault .starvation).present = false ∧
      (c.judged e v now).stats.framesIn = min 65535 (c.stats.framesIn + 1) := by
  obtain ⟨-, -, -, starvation, run, stats, -⟩ := judged_playout (c := c) (e := e) (v := v) (now := now)
  rw [starvation, run, stats, judged_starvation, h, ← count]
  exact ⟨rfl, rfl, congrArg FaultRecord.present (fault_setFault_self _ .starvation _), rfl⟩

end fields

section classify

variable {c : Context} {e : QueueEntry} {x : Byte}

theorem classify_of_none (h : c.expected = none) : c.classify e.seq = .first := by
  rw [Context.classify, h]

theorem classify_of_some (h : c.expected = some x) : c.classify e.seq =
    if (e.seq - x).toNat < 8 then if ∃ f ∈ c.queue, f.seq = e.seq then .duplicate else .accepted (e.seq - x).toNat
    else if (e.seq - x).toNat < 128 then if c.tooEarlyRun = 2 then .resync else .tooEarly
    else .late := by
  have held : (c.queue.any fun f => decide (f.seq = e.seq)) = true ↔ ∃ f ∈ c.queue, f.seq = e.seq := by simp
  simp only [Context.classify, h, held]
  rfl

end classify

/-- A new entry stands behind every entry at most as far ahead as it is (R82). -/
theorem insertEntry_eq (x : Byte) (e : QueueEntry) (q : List QueueEntry) :
    ∃ before after, q = before ++ after ∧ insertEntry x e q = before ++ e :: after ∧
      (∀ f ∈ before, seqDistance x f.seq ≤ seqDistance x e.seq) ∧
      ∀ f, after.head? = some f → seqDistance x e.seq < seqDistance x f.seq := by
  induction q with
  | nil => exact ⟨[], [], rfl, rfl, by simp, by simp⟩
  | cons g rest ih =>
    rw [insertEntry]
    split
    · next nearer => exact ⟨[], g :: rest, rfl, rfl, by simp, by simpa using nearer⟩
    · next further =>
      obtain ⟨before, after, split, inserted, behind, ahead⟩ := ih
      refine ⟨g :: before, after, by rw [split]; rfl, by rw [inserted]; rfl, fun f hf => ?_, ahead⟩
      rcases List.mem_cons.mp hf with rfl | hf
      · exact not_lt.mp further
      · exact behind f hf

theorem margin_eq (now : Phase) (d : Nat) (c : Context) :
    c.margin now d = ((if now = c.phiDn then 160 else (c.phiDn.val + 160 - now.val) % 160) + 160 * d : Nat) := by
  have here : phaseDist now c.phiDn = 0 ↔ now = c.phiDn := by
    have := now.isLt
    have := c.phiDn.isLt
    rw [Fin.ext_iff, phaseDist]
    omega
  unfold Context.margin
  simp only [here]
  rfl

/-- Settles O39: the alignment unit's part of a valid arrival, which its verdict leaves as it is. -/
theorem arrivalReachesAlignment : Obligations.ArrivalReachesAlignment := by
  intro s bytes r e ch c rest up unit tag hc open_ ignored acked
  obtain ⟨rec, queue⟩ := judged_touches e ((c.aligned r).classify e.seq) (c.aligned r) s.hw.c
  obtain ⟨rec', touched⟩ := aligned_touches r c
  obtain ⟨request, drift, present, state⟩ := aligned_request r c
  have fault : ((c.aligned r).judged e ((c.aligned r).classify e.seq) s.hw.c).fault .drift = (c.aligned r).fault .drift := by
    rw [queue]
    exact fault_setFault_other _ _ _ _ (by decide)
  refine ⟨_, _, exec_arrival rest up unit tag hc open_, rfl, rfl, ?_⟩
  rw [fault, present, state]
  refine ⟨?_, ?_, ?_, rfl, rfl, ?_⟩
  · rw [queue, touched]
    rfl
  · rw [queue, ← request]
    rfl
  · rw [queue, ← drift]
    rfl
  · rw [queue, touched]
    exact ⟨rfl, rfl, rfl, rfl, rfl, rfl, rfl, rfl, rfl, rfl⟩

/-- Settles O40: the verdict of each distance, and the window it is counted in. -/
theorem arrivalReachesPlayoutQueue : Obligations.ArrivalReachesPlayoutQueue := by
  intro s bytes r e ch c rest up unit tag hc open_ acked count least late
  obtain ⟨wc, wm, wl⟩ := aligned_window r c
  obtain ⟨rec, touched⟩ := aligned_touches r c
  have same : (c.aligned r).queue = c.queue ∧ (c.aligned r).expected = c.expected ∧ (c.aligned r).playout = c.playout ∧
      (c.aligned r).starvation = c.starvation ∧ (c.aligned r).tooEarlyRun = c.tooEarlyRun ∧
      (c.aligned r).stats = c.stats ∧ (c.aligned r).phiDn = c.phiDn ∧ (c.aligned r).started = c.started := by
    rw [touched]
    exact ⟨rfl, rfl, rfl, rfl, rfl, rfl, rfl, rfl⟩
  have done := exec_arrival rest up unit tag hc open_
  clear touched
  generalize c.aligned r = a at *
  obtain ⟨queue, expected, playout, starvation, run, stats, phi, started⟩ := same
  have verdict : a.classify e.seq = c.classify e.seq := by
    unfold Context.classify
    rw [expected, queue, run]
  generalize a.classify e.seq = v at *
  obtain ⟨jq, je, jp, js, jr, jst, jb⟩ := judged_playout (c := a) (e := e) (v := v) (now := s.hw.c)
  refine ⟨_, _, done, by simp, jb.trans started, ?_⟩
  intro taken left uncounted counted
  have still (h : (a.takeEntry e v).countedMargin s.hw.c v = none) : uncounted := by
    obtain ⟨n, m, l⟩ := window_of_uncounted h
    exact ⟨n.trans wc, m.trans wm, l.trans wl, by simp [(judged_of_uncounted h).2]⟩
  have moved {m : Int} (h : (a.takeEntry e v).countedMargin s.hw.c v = some m) : counted m := by
    obtain ⟨n, least', -⟩ := window_of_counted h
    rw [wc] at n
    rw [wm] at least'
    exact ⟨n, least', by simp only [(judged_of_counted h).2, wc, decide_eq_true_eq]; rfl⟩
  have inserted {d : Context} (h : a.takeEntry e v = d.tookFrame) (framesIn : d.stats.framesIn = a.stats.framesIn) :
      taken := by
    have := judged_of_took (now := s.hw.c) h framesIn
    rw [stats] at this
    exact this
  have discarded (kept : (a.takeEntry e v).queue = a.queue ∧ (a.takeEntry e v).expected = a.expected ∧
      (a.takeEntry e v).playout = a.playout ∧ (a.takeEntry e v).starvation = a.starvation ∧
      (a.takeEntry e v).stats.framesIn = a.stats.framesIn) : left := by
    obtain ⟨kq, ke, kp, ks, kf⟩ := kept
    exact ⟨jq.trans (kq.trans queue), je.trans (ke.trans expected), jp.trans (kp.trans playout),
      js.trans (ks.trans starvation), by rw [jst, kf, stats]⟩
  refine ⟨fun unknown => ?_, fun x hx => ?_⟩
  · obtain rfl : v = .first := verdict.trans (classify_of_none unknown)
    exact ⟨je, jq, jp.trans playout, inserted rfl rfl, still rfl⟩
  rw [classify_of_some hx] at verdict
  rw [hx] at expected
  intro d
  refine ⟨fun near held => ?_, fun near fresh => ?_, fun far ahead third => ?_, fun far ahead early => ?_,
    fun behind => ?_⟩
  · obtain rfl : v = .duplicate := verdict.trans ((if_pos near).trans (if_pos held))
    exact ⟨discarded ⟨rfl, rfl, rfl, rfl, rfl⟩, jr.trans run, by rw [jst, ← stats]; rfl, still rfl⟩
  · obtain rfl : v = .accepted d := verdict.trans ((if_pos near).trans (if_neg fresh))
    obtain ⟨before, after, split, stands, behind, ahead⟩ := insertEntry_eq x e c.queue
    have entered : (a.takeEntry e (.accepted d)).queue = before ++ e :: after := by
      rw [← stands, ← queue]
      exact congrArg (fun y : Option Byte => insertEntry (y.getD 0) e a.queue) expected
    refine ⟨je.trans (expected.trans hx.symm), jp.trans playout, inserted rfl rfl,
      ⟨before, after, split, jq.trans entered, behind, ahead⟩, fun waiting => still ?_, fun playing => ?_⟩
    · exact if_neg (by rw [show (a.takeEntry e (.accepted d)).playout = c.playout from playout, waiting]; decide)
    · have margin : (a.takeEntry e (.accepted d)).countedMargin s.hw.c (.accepted d) = some
          (((if s.hw.c = c.phiDn then 160 else (c.phiDn.val + 160 - s.hw.c.val) % 160) + 160 * d : Nat) : Int) := by
        rw [← phi, ← margin_eq]
        exact if_pos (playout.trans playing)
      refine ⟨(window_of_counted margin).2.2.trans ((if_neg (by omega)).trans wl), moved margin⟩
  · obtain rfl : v = .resync := verdict.trans ((if_neg (by omega)).trans ((if_pos ahead).trans (if_pos third)))
    exact ⟨je, jq, jp, inserted rfl rfl, still rfl, by rw [jst, ← stats]; rfl, by rw [jst, ← stats]; rfl⟩
  · obtain rfl : v = .tooEarly := verdict.trans ((if_neg (by omega)).trans ((if_pos ahead).trans (if_neg early)))
    exact ⟨discarded ⟨rfl, rfl, rfl, rfl, rfl⟩, jr.trans (congrArg (· + 1) run), by rw [jst, ← stats]; rfl, still rfl⟩
  · obtain rfl : v = .late := verdict.trans ((if_neg (by omega)).trans (if_neg (by omega)))
    have margin : (a.takeEntry e .late).countedMargin s.hw.c .late = some (-1) := rfl
    exact ⟨discarded ⟨rfl, rfl, rfl, rfl, rfl⟩, jr.trans run, by rw [jst, ← stats]; rfl,
      (window_of_counted margin).2.2.trans ((if_pos rfl).trans (by rw [wl])), moved margin⟩

/-! ## The end of an observation window -/

section band

variable {s : State} {ch : Chan} {c : Context}

/-- A profile after its band has been judged at use (R167). -/
def Profile.judgedBand (p : Profile) : Profile := { p with defaulted := p.defaulted || !(p.marginLo < p.marginHi) }

/-- Whether judging the band sets the marker that was clear (R167). -/
abbrev Profile.marks (p : Profile) : Prop := ¬ p.marginLo < p.marginHi ∧ p.defaulted = false

/-- The notice of a marker that was clear (R167). -/
abbrev Profile.markNotices (p : Profile) (ch : Chan) : List NoticeBody := if p.marks then [.configDefaulted ch] else []

/-- A profile's marker set where a judgement found it inconsistent, and its notice where it was clear (R167). -/
theorem markDefaulted_where (bad : Prop) [Decidable bad] (n : ProfileNo) :
    (if bad then s.markDefaulted ch n else s) = { s with
      ctl := (s.notifyAll (if bad ∧ (s.profiles[n]).defaulted = false then [.configDefaulted ch] else [])).ctl
      profiles := s.profiles.set n { s.profiles[n] with defaulted := (s.profiles[n]).defaulted || decide bad } } := by
  have keep : s.profiles.set n s.profiles[n] = s.profiles := set_of_getElem_fin s.profiles n _ rfl
  by_cases wrong : bad
  · cases clear : (s.profiles[n]).defaulted with
    | false =>
      rw [if_pos wrong, if_pos ⟨wrong, rfl⟩, State.markDefaulted, if_neg (by rw [clear]; decide), decide_eq_true wrong]
      rfl
    | true =>
      have same : ({ s.profiles[n] with defaulted := true } : Profile) = s.profiles[n] := by rw [← clear]
      rw [if_pos wrong, if_neg fun both => Bool.noConfusion both.2, State.markDefaulted, if_pos clear, Bool.true_or, same,
        keep]
      rfl
  · rw [if_neg wrong, if_neg fun both => wrong both.1, decide_eq_false wrong, Bool.or_false, keep]
    rfl

/-- The state once the band has been judged: the marker, and its notice where it was clear (R167). -/
theorem bandJudged_eq :
    (if (s.profileOf c).marginLo < (s.profileOf c).marginHi then s else s.markDefaulted ch c.profile) = { s with
      ctl := (s.notifyAll ((s.profileOf c).markNotices ch)).ctl
      profiles := s.profiles.set c.profile (s.profileOf c).judgedBand } := by
  have marked := markDefaulted_where (s := s) (ch := ch) (¬ (s.profileOf c).marginLo < (s.profileOf c).marginHi) c.profile
  rw [ite_not, decide_not] at marked
  exact marked

/-- The request the minimum margin calls for made, if any (R102). -/
def Profile.compared (p : Profile) (c : Context) : Context :=
  match c.winMin.bind (requestFor p.band.1 p.band.2) with
  | none => c
  | some (dir, k) => c.makeRequest dir k

/-- With no request outstanding the band is judged and compared (R102, R167). -/
theorem compareBand_eq (h : s.chan[ch] = some c) (idle : c.request = none) :
    s.compareBand ch = { s.setCtx ch ((s.profileOf c).compared c) with
      ctl := (s.notifyAll ((s.profileOf c).markNotices ch)).ctl
      profiles := s.profiles.set c.profile (s.profileOf c).judgedBand } := by
  have outstanding : ¬ c.request.isSome = true := by rw [idle]; decide
  rw [State.compareBand, h]
  simp only [bandJudged_eq, if_neg outstanding, Profile.compared]
  cases c.winMin with
  | none => simp only [Option.bind_none, setCtx_of_same ch c s h]
  | some m =>
    simp only [Option.bind_some]
    cases requestFor (s.profileOf c).band.1 (s.profileOf c).band.2 m with
    | none => simp only [setCtx_of_same ch c s h]
    | some q => exact modCtx_eq ch c _ _ h

theorem compareBand_of_request (h : s.chan[ch] = some c) (busy : c.request.isSome) : s.compareBand ch = s := by
  rw [State.compareBand, h]
  exact if_pos busy

end band

section request

variable {p : Profile} {c : Context} {m : Int}

theorem band_eq (p : Profile) :
    (p.band.1 : Int) = (if p.marginLo < p.marginHi then (p.marginLo : Int) else 60) ∧
      (p.band.2 : Int) = if p.marginLo < p.marginHi then (p.marginHi : Int) else 300 := by
  unfold Profile.band
  split <;> exact ⟨rfl, rfl⟩

theorem clamp_eq (x : Int) : clamp 1 80 x = max 1 (min 80 x) := by
  unfold clamp
  omega

/-- Outside the band a request is called for, inside it none (R102). -/
theorem requestFor_of_out {lo hi : Nat} (h : m < lo ∨ hi < m) :
    ∃ k : Nat, requestFor lo hi m = some (if m < lo then .sendEarlier else .sendLater, k) ∧
      (k : Int) = max 1 (min 80 (if m < lo then ((lo : Int) + hi) / 2 - m else m - ((lo : Int) + hi) / 2)) := by
  by_cases below : m < lo
  · refine ⟨_, (if_pos below).trans (by rw [if_pos below]), ?_⟩
    rw [clamp_eq, if_pos below]
    omega
  · have above : (hi : Int) < m := h.resolve_left below
    refine ⟨_, (if_neg below).trans ((if_pos above).trans (by rw [if_neg below])), ?_⟩
    rw [clamp_eq, if_neg below]
    omega

theorem requestFor_of_in {lo hi : Nat} (h : lo ≤ m ∧ m ≤ hi) : requestFor lo hi m = none :=
  (if_neg (not_lt.mpr h.1)).trans (if_neg (not_lt.mpr h.2))

theorem compared_of_out (hm : c.winMin = some m) (h : m < p.band.1 ∨ (p.band.2 : Int) < m) :
    ∃ k : Nat, p.compared c = c.makeRequest (if m < p.band.1 then .sendEarlier else .sendLater) k ∧
      (k : Int) = max 1 (min 80 (if m < p.band.1 then ((p.band.1 : Int) + p.band.2) / 2 - m
        else m - ((p.band.1 : Int) + p.band.2) / 2)) := by
  obtain ⟨k, request, amount⟩ := requestFor_of_out h
  exact ⟨k, by rw [Profile.compared, hm, Option.bind_some, request], amount⟩

theorem compared_of_in (h : ∀ m, c.winMin = some m → p.band.1 ≤ m ∧ m ≤ (p.band.2 : Int)) : p.compared c = c := by
  rw [Profile.compared]
  cases hm : c.winMin with
  | none => rfl
  | some m => rw [Option.bind_some, requestFor_of_in (h m hm)]

/-- Comparing the band writes the request, its token and its count alone. -/
theorem compared_touches (p : Profile) (c : Context) : p.compared c = { c with
    request := (p.compared c).request, lastToken := (p.compared c).lastToken, stats := (p.compared c).stats } := by
  unfold Profile.compared
  split <;> rfl

end request

/-- The rest of a window's end, in the state its judgement of LATE leaves (R101, R102). -/
theorem observationWindowEnd_eq {s : State} {ch : Chan} {c : Context} (h : s.chan[ch] = some c) :
    s.observationWindowEnd ch = ((s.judge ch .late ((s.profileOf c).lateLimit ≤ c.winLate)).compareBand ch).modCtx ch
      Context.restartWindow := by
  rw [State.observationWindowEnd, h]

/-- A window's end with a request outstanding leaves it (R102). -/
theorem observationWindowEnd_of_request {s : State} {ch : Chan} {c : Context} (h : s.chan[ch] = some c)
    (busy : c.request.isSome) :
    let late := decide ((s.profileOf c).lateLimit ≤ c.winLate)
    s.observationWindowEnd ch = (s.judge ch .late late).setCtx ch (s.judgedIn .late late c).restartWindow := by
  intro late
  have put : (s.judge ch .late late).chan[ch] = some (s.judgedIn .late late c) := by
    rw [judge_chan h]
    exact set_getElem_fin_self _ _ _
  have still : (s.judgedIn .late late c).request.isSome := by
    rw [judgedIn_touches]
    exact busy
  rw [observationWindowEnd_eq h, compareBand_of_request put still]
  exact modCtx_eq ch _ _ _ put

/-- A window's end with none outstanding judges and compares the band (R102, R167). -/
theorem observationWindowEnd_of_idle {s : State} {ch : Chan} {c : Context} (h : s.chan[ch] = some c)
    (idle : c.request = none) :
    let late := decide ((s.profileOf c).lateLimit ≤ c.winLate)
    let p := s.profileOf c
    s.observationWindowEnd ch =
      { (s.judge ch .late late).setCtx ch (p.compared (s.judgedIn .late late c)).restartWindow with
        ctl := ((s.judge ch .late late).notifyAll (p.markNotices ch)).ctl
        profiles := s.profiles.set c.profile p.judgedBand } := by
  intro late p
  have put : (s.judge ch .late late).chan[ch] = some (s.judgedIn .late late c) := by
    rw [judge_chan h]
    exact set_getElem_fin_self _ _ _
  have still : (s.judgedIn .late late c).request = none := by
    rw [judgedIn_touches]
    exact idle
  have profiles : (s.judge ch .late late).profiles = s.profiles := (supervised_judge ch _ _ s).keeps.profiles
  have same : (s.judge ch .late late).profileOf (s.judgedIn .late late c) = p :=
    (profileOf_congr profiles _).trans profileOf_judgedIn
  have number : (s.judgedIn .late late c).profile = c.profile := by rw [judgedIn_touches]
  have marked : (s.judge ch .late late).profiles.set (s.judgedIn .late late c).profile p.judgedBand =
      s.profiles.set c.profile p.judgedBand := by simp only [number, profiles]
  rw [observationWindowEnd_eq h, compareBand_eq put still, same, marked]
  refine (modCtx_eq ch (p.compared (s.judgedIn .late late c)) _ _
    (set_getElem_fin_self (s.judge ch .late late).chan ch _)).trans ?_
  simp only [State.setCtx, Vector.set_set]

/-- The end of an observation window in one: `d` is the context before its window restarts (R101, R102). -/
theorem observationWindowEnd_summary {s : State} {ch : Chan} {c : Context} (h : s.chan[ch] = some c) :
    let p := s.profileOf c
    let late := decide (p.lateLimit ≤ c.winLate)
    let reports := s.judgedBy .late late ch c
    ∃ d, (s.observationWindowEnd ch).chan = s.chan.set ch (some d.restartWindow) ∧
      d = { s.judgedIn .late late c with request := d.request, lastToken := d.lastToken, stats := d.stats } ∧
      (s.observationWindowEnd ch).history = s.historyAfter reports ∧
      (s.observationWindowEnd ch).ctl = (s.notifyAll (reports.map FaultReport.notice
        ++ if c.request = none ∧ p.marks then [.configDefaulted ch] else [])).ctl ∧
      (c.request.isSome → d = s.judgedIn .late late c ∧ (s.observationWindowEnd ch).profiles = s.profiles) ∧
      (c.request = none → d = p.compared (s.judgedIn .late late c) ∧
        (s.observationWindowEnd ch).profiles = s.profiles.set c.profile p.judgedBand) := by
  intro p late reports
  have chan (d : Context) : ((s.judge ch .late late).setCtx ch d).chan = s.chan.set ch (some d) := by
    rw [setCtx_chan, judge_chan h, Vector.set_set]
  by_cases idle : c.request = none
  · have busy : ¬ c.request.isSome = true := by rw [idle]; decide
    rw [observationWindowEnd_of_idle h idle]
    refine ⟨p.compared (s.judgedIn .late late c), chan _, compared_touches _ _, judge_history h, ?_,
      fun some => absurd some busy, fun _ => ⟨rfl, rfl⟩⟩
    have marks : (if c.request = none ∧ p.marks then [NoticeBody.configDefaulted ch] else []) = p.markNotices ch :=
      if_congr (and_iff_right idle) rfl rfl
    rw [marks, notifyAll_append]
    exact notifyAll_ctl_congr _ (judge_ctl h) ((supervised_judge ch _ _ s).keeps.settings.trans (by rw [notifyAll_eq]))
      ((supervised_judge ch _ _ s).hw.trans (by rw [notifyAll_eq]))
  · have busy : c.request.isSome = true := Option.isSome_iff_ne_none.mpr idle
    rw [observationWindowEnd_of_request h busy]
    refine ⟨s.judgedIn .late late c, chan _, rfl, judge_history h, ?_, fun _ => ⟨rfl, ?_⟩, fun none => absurd none idle⟩
    · rw [if_neg fun both => idle both.1, List.append_nil]
      exact judge_ctl h
    · exact (supervised_judge ch _ _ s).keeps.profiles

/-- Settles O41: LATE is judged first, and the band compared only where no request is outstanding. -/
theorem observationWindowEndJudges : Obligations.ObservationWindowEndJudges := by
  intro s ch c r head called open_ p late lo hi target reports token
  obtain ⟨d, chan, touched, history, ctl, busy, idle⟩ := observationWindowEnd_summary (s := { s with rest := [] }) called
  have frame := observed_observationWindowEnd ch { s with rest := [] }
  have fault (k : FaultKind) : d.restartWindow.fault k =
      (({ s with rest := [] } : State).judgedIn .late late c).fault k := by
    rw [touched]
    rfl
  have least : (({ s with rest := [] } : State).judgedIn .late late c).winMin = c.winMin := by rw [judgedIn_touches]
  obtain ⟨bottom, top⟩ := band_eq p
  refine ⟨_, d.restartWindow, exec_observationWindowEnd head, by rw [chan]; exact set_getElem_fin_self _ _ _, frame.others,
    rfl, frame.hw, frame.link, frame.settings, frame.mode, frame.tagMap, frame.due, history, ?_, rfl, rfl, rfl, ?_, ?_,
    ?_, ?_, fun k hk => ?_, fun outstanding => ?_, fun none => ⟨?_, ?_, ?_⟩⟩
  · refine ctl.trans ?_
    rw [notifyAll_ctl, notifyAll_ctl]
    rfl
  · rw [touched, judgedIn_touches]
    rfl
  · rw [touched, judgedIn_touches]
    rfl
  · rw [fault]
    exact judgedIn_present open_
  · rw [fault]
    exact judgedIn_state open_
  · rw [fault]
    exact fault_judgedIn_other hk
  · obtain ⟨rfl, profiles⟩ := busy outstanding
    rw [judgedIn_touches]
    exact ⟨rfl, rfl, rfl, profiles⟩
  · exact (idle none).2
  · intro m hm out
    obtain ⟨same, -⟩ := idle none
    obtain ⟨k, made, amount⟩ := compared_of_out (p := p) (least.trans hm) (by rw [bottom, top]; exact out)
    rw [bottom, top] at amount
    rw [bottom] at made
    rw [same.trans made, judgedIn_touches]
    exact ⟨⟨k, rfl, amount⟩, rfl, rfl⟩
  · intro inside
    obtain ⟨same, -⟩ := idle none
    have kept := compared_of_in (p := p) fun m hm => by rw [bottom, top]; exact inside m (least.symm.trans hm)
    rw [same.trans kept, judgedIn_touches]
    exact ⟨none, rfl, rfl⟩

end Sys2Proof.Machine
end

section
/-! PROOF. An accepted OPEN (R6, R7, R26, R128, R135, R140, R150, R167): the bucket it takes, the marker, the conditions it
finds, and O54. -/

namespace Sys2Proof.Machine

/-! ## The bucket -/

/-- A bucket holds the least count of those in a list, and is the first of them that does. -/
def FirstLeast (v : Vector Nat 16) (l : List Bucket) (r : Bucket) : Prop :=
  ∀ x ∈ l, v[r] ≤ v[x] ∧ (x < r → v[r] < v[x])

/-- The first of the least counts of a list that ascends from the bucket it is compared with. -/
theorem firstLeast_foldl (v : Vector Nat 16) : ∀ (l : List Bucket) (best : Bucket), (∀ x ∈ l, best ≤ x) → l.Pairwise (· < ·) →
    FirstLeast v (best :: l) (l.foldl (fun best b => if v[b] < v[best] then b else best) best)
  | [], best, _, _ => fun x hx => by
    obtain rfl := List.mem_singleton.mp hx
    exact ⟨le_rfl, fun h => absurd h (lt_irrefl _)⟩
  | b :: l, best, low, ascending => by
    obtain ⟨above, rest⟩ := List.pairwise_cons.mp ascending
    rw [List.foldl_cons]
    by_cases smaller : v[b] < v[best]
    · have found := firstLeast_foldl v l b (fun y hy => (above y hy).le) rest
      have here := (found b List.mem_cons_self).1
      rw [if_pos smaller]
      exact List.forall_mem_cons.mpr ⟨⟨here.trans smaller.le, fun _ => here.trans_lt smaller⟩, found⟩
    · have found := firstLeast_foldl v l best (fun y hy => low y (List.mem_cons_of_mem b hy)) rest
      obtain ⟨least, first⟩ := found best List.mem_cons_self
      obtain ⟨here, others⟩ := List.forall_mem_cons.mp found
      rw [if_neg smaller]
      exact List.forall_mem_cons.mpr ⟨here, List.forall_mem_cons.mpr ⟨⟨least.trans (not_lt.mp smaller), fun before =>
        (first ((low b List.mem_cons_self).trans_lt before)).trans_le (not_lt.mp smaller)⟩, others⟩⟩

/-- The smallest bucket is the first with the least count (R128). -/
theorem smallestBucket_eq {v : Vector Nat 16} {b : Bucket} (least : ∀ x : Bucket, v[b] ≤ v[x])
    (first : ∀ x : Bucket, x < b → v[b] < v[x]) : smallestBucket v = b := by
  have found : FirstLeast v _ (smallestBucket v) :=
    firstLeast_foldl v (List.finRange 16) 0 (fun x _ => Fin.zero_le x) (List.pairwise_lt_finRange 16)
  have here := found b (List.mem_cons_of_mem 0 (List.mem_finRange b))
  rcases lt_trichotomy (smallestBucket v) b with before | same | after
  · exact absurd (first _ before) (not_lt.mpr here.1)
  · exact same
  · exact absurd (here.2 after) (not_lt.mpr (least _))

theorem openPhase_val {v : Vector Nat 16} {b : Bucket} (h : smallestBucket v = b) (ch : Chan) :
    (openPhase v ch).val = 10 * b.val + ch.val % 10 := by
  have := b.isLt
  rw [openPhase, h]
  exact Nat.mod_eq_of_lt (by omega)

/-! ## The checks passed -/

theorem checkOpen_of_passed {s : State} {o : Message} {ch : Chan} {tag : Tag} {h : HighwayNo} {n : Timeslot}
    {p : ProfileNo}
    (body : o.body = [byte ch.val, byte (tag.val / 256), byte tag.val, byte h.val, byte n.val, byte p.val])
    (load : s.eng.load.state = .normal) (free : s.chan[ch] = none) (unused : s.tagMap[tag] = none)
    (on : (s.hw.records[h]).enabled = true) (usable : (s.hw.records[h]).reserved[n] = false)
    (unbound : s.hw.bindings[slotNo h n] = none) : s.checkOpen o = .ok ⟨ch, tag, h, n, p⟩ := by
  have number : 256 * (byte (tag.val / 256)).toNat + (byte tag.val).toNat = tag.val := by
    have := tag.isLt
    simp only [byte, BitVec.toNat_ofNat]
    omega
  have highway : (byte h.val).toNat = h.val := Nat.mod_eq_of_lt (h.isLt.trans (by decide))
  have slot : (byte n.val).toNat = n.val := Nat.mod_eq_of_lt (n.isLt.trans (by decide))
  have profile : (byte p.val).toNat = p.val := Nat.mod_eq_of_lt (p.isLt.trans (by decide))
  rw [checkOpen_of_body body, if_neg (not_not.mpr load), if_neg (by rw [free]; decide)]
  simp only [number, highway, slot, profile]
  simp only [Fin.getElem_fin] at unused on usable unbound
  rw [dif_pos tag.isLt, if_neg (by rw [unused]; decide), dif_pos h.isLt, if_neg (by rw [on]; decide), dif_pos n.isLt,
    if_neg (by rw [usable]; decide), if_neg (by rw [Fin.getElem_fin, unbound]; decide), dif_pos p.isLt]

/-! ## The conditions found -/

/-- Judging a kind that is already absent leaves a call as it is. -/
theorem judge_false_of_fresh {s : State} {ch : Chan} {c : Context} {k : FaultKind} (h : s.chan[ch] = some c)
    (fresh : (c.fault k).present = false) : s.judge ch k false = s := by
  have same : c.absent k = c := by
    unfold Context.absent
    split
    · rfl
    · have record : ({ c.fault k with present := false } : FaultRecord) = c.fault k := by rw [← fresh]
      rw [Context.setCondition, record, setFault_fault]
  change s.setAbsent ch k = s
  rw [setAbsent_eq ch k s h, same, setCtx_of_same ch c s h]

/-- OPEN's findings judge HIGHWAY, then LINK, in a call whose conditions are absent (R26, R135, R146). -/
theorem openConditions_eq {s : State} {ch : Chan} {c : Context} (h : s.chan[ch] = some c)
    (fresh : ∀ k, c.fault k = .fresh) :
    s.openConditions ch = (s.judge ch .highway (s.hw.sync = .lost)).judge ch .link (s.link.state = .down) := by
  have first : (if s.hw.sync = .lost then s.findPresent ch .highway else s) = s.judge ch .highway (s.hw.sync = .lost) := by
    by_cases lost : s.hw.sync = .lost
    · rw [if_pos lost, decide_eq_true lost]
      rfl
    · rw [if_neg lost, decide_eq_false lost, judge_false_of_fresh h (by rw [fresh]; rfl)]
  have link := (supervised_judge ch .highway (s.hw.sync = .lost) s).link
  have here := judge_chan (k := .highway) (present := s.hw.sync = .lost) h
  have record : ((s.judgedIn .highway (s.hw.sync = .lost) c).fault .link).present = false := by
    rw [fault_judgedIn_other (by decide), fresh]
    rfl
  rw [State.openConditions, first]
  generalize s.judge ch .highway (s.hw.sync = .lost) = mid at *
  rw [link]
  by_cases down : s.link.state = .down
  · rw [if_pos down, decide_eq_true down]
    rfl
  · have self : mid.chan[ch] = some _ := (congrArg (·[ch]) here).trans (set_getElem_fin_self _ _ _)
    rw [if_neg down, decide_eq_false down, judge_false_of_fresh self record]

/-- The kinds OPEN finds present (R26, R135). -/
abbrev State.openFound (s : State) : List FaultKind :=
  (if s.hw.sync = .lost then [.highway] else []) ++ if s.link.state = .down then [.link] else []

/-- The report of a kind found in a call just opened (R150). -/
abbrev Profile.openReport (prof : Profile) (ch : Chan) (k : FaultKind) : List FaultReport :=
  if prof.cls[k.index] = .off then [] else [⟨ch, k, prof.cls[k.index], .raised⟩]

theorem flatMap_ite_singleton {α β : Type} (p : Prop) [Decidable p] (a : α) (f : α → List β) :
    (if p then [a] else []).flatMap f = if p then f a else [] := by
  split
  · exact List.flatMap_singleton f a
  · rfl

theorem openReports_eq {s : State} {ch : Chan} {c : Context} (open_ : c.state ≠ .closing)
    (fresh : ∀ k, c.fault k = .fresh) :
    s.judgedBy .highway (s.hw.sync = .lost) ch c ++ s.judgedBy .link (s.link.state = .down) ch c =
      s.openFound.flatMap ((s.profileOf c).openReport ch) := by
  have raised (k : FaultKind) : s.raisedBy k ch c = (s.profileOf c).openReport ch k :=
    raisedBy_of_none open_ (by rw [fresh]; rfl)
  rw [State.openFound, List.flatMap_append, flatMap_ite_singleton, flatMap_ite_singleton, State.judgedBy, State.judgedBy,
    raised, raised]
  simp only [decide_eq_true_eq]

/-! ## The obligation -/

/-- A judgement leaves a channel without an outcome so. -/
theorem outcome_judgedIn_of_none {s : State} {c : Context} {k : FaultKind} {present : Bool} (h : c.outcome = .none) :
    (s.judgedIn k present c).outcome = .none := by
  cases present with
  | true =>
    change (c.found _ _ _ k).outcome = .none
    unfold Context.found
    dsimp only
    split
    · exact h
    split
    · split
      · exact congrArg BoundaryOutcome.withdraw h
      · exact h
    · exact h
  | false =>
    change (c.absent k).outcome = .none
    unfold Context.absent
    split <;> exact h

/-- A context moved by supervision: its records, its state and its outcome alone. -/
def Context.Moved (c d : Context) : Prop := d = { c with faults := d.faults, state := d.state, outcome := d.outcome }

theorem Context.Moved.trans {c d e : Context} (h : c.Moved d) (k : d.Moved e) : c.Moved e := by
  unfold Context.Moved at *
  rw [h] at k
  exact k

theorem moved_judgedIn (s : State) (k : FaultKind) (present : Bool) (c : Context) : c.Moved (s.judgedIn k present c) :=
  judgedIn_touches

theorem judge_faultFrames {s : State} {ch : Chan} {c : Context} (k : FaultKind) (present : Bool) (h : s.chan[ch] = some c)
    (zero : s.faultFrames[ch] = 0) : (s.judge ch k present).faultFrames[ch] = 0 := by
  rw [judge_eq ch k present s h]
  dsimp only
  split
  · exact set_getElem_fin_self _ _ _
  · exact zero

/-- OPEN's findings in one: `d` is the context they leave (R26, R135, R150). -/
theorem openConditions_summary {s : State} {ch : Chan} {c : Context} (h : s.chan[ch] = some c)
    (fresh : ∀ k, c.fault k = .fresh) (aligning : c.state = .aligning) (none : c.outcome = .none) :
    let t := s.openConditions ch
    let reports := s.openFound.flatMap ((s.profileOf c).openReport ch)
    ∃ d, t.chan = s.chan.set ch (some d) ∧ Supervised ch s t ∧
      t.ctl = (s.notifyAll (reports.map FaultReport.notice)).ctl ∧ t.history = s.historyAfter reports ∧
      d = { c with faults := d.faults, state := d.state } ∧
      (∀ k, k ≠ .highway → k ≠ .link → d.fault k = .fresh) ∧
      (d.fault .highway).present = decide (s.hw.sync = .lost) ∧
      (d.fault .link).present = decide (s.link.state = .down) ∧
      (s.faultFrames[ch] = 0 → t.faultFrames[ch] = 0) ∧
      (s.hw.sync ≠ .lost → s.link.state ≠ .down → t = s ∧ d = c) := by
  intro t reports
  have open_ : c.state ≠ .closing := by rw [aligning]; decide
  have run : t = (s.judge ch .highway (s.hw.sync = .lost)).judge ch .link (s.link.state = .down) := openConditions_eq h fresh
  obtain ⟨chan, ctl, history⟩ := judge_judge (k := .highway) (j := .link) (present := s.hw.sync = .lost) h (by decide)
    (s.link.state = .down)
  rw [← run, openReports_eq open_ fresh] at ctl history
  rw [← run] at chan
  have midOpen : (s.judgedIn .highway (s.hw.sync = .lost) c).state ≠ .closing := fun closing => open_ (judgedIn_closing_iff.mp closing)
  refine ⟨_, chan, ?_, ctl, history, ?_, fun k hk hk' => ?_, ?_, judgedIn_present midOpen, fun zero => ?_, fun locked up => ?_⟩
  · rw [run]
    exact (supervised_judge ch _ _ s).trans (supervised_judge ch _ _ _)
  · have kept := (outcome_judgedIn_of_none (s := s) (k := .link) (present := s.link.state = .down)
      (outcome_judgedIn_of_none (s := s) (k := .highway) (present := s.hw.sync = .lost) none)).trans none.symm
    have whole := (moved_judgedIn s .highway (s.hw.sync = .lost) c).trans (moved_judgedIn s .link (s.link.state = .down) _)
    unfold Context.Moved at whole
    rw [kept] at whole
    exact whole
  · exact (fault_judgedIn_other hk').trans ((fault_judgedIn_other hk).trans (fresh k))
  · exact (congrArg FaultRecord.present (fault_judgedIn_other (by decide))).trans (judgedIn_present open_)
  · have self := (congrArg (·[ch]) (judge_chan (k := .highway) (present := s.hw.sync = .lost) h)).trans
      (set_getElem_fin_self _ _ _)
    rw [run]
    exact judge_faultFrames _ _ self (judge_faultFrames _ _ h zero)
  · have same : t = s := by
      simp only [t, State.openConditions, if_neg locked, if_neg up]
    have self := congrArg (·[ch]) chan
    rw [same, h, set_getElem_fin_self, Option.some_inj] at self
    exact ⟨same, self.symm⟩

/-- The state with a profile's marker judged at OPEN (R167). -/
theorem markedAtOpen_eq (s : State) (ch : Chan) (n : ProfileNo) :
    (if (s.profiles[n]).rateDisagrees then s.markDefaulted ch n else s) = { s with
      ctl := (s.notifyAll (if (s.profiles[n]).defaulted = false ∧ (s.profiles[n]).rateSet.mem (s.profiles[n]).initialRate = false
        then [.configDefaulted ch] else [])).ctl
      profiles := s.profiles.set n { s.profiles[n] with
        defaulted := (s.profiles[n]).defaulted || !(s.profiles[n]).rateSet.mem (s.profiles[n]).initialRate } } := by
  have bad : (s.profiles[n]).rateDisagrees = true ↔ (s.profiles[n]).rateSet.mem (s.profiles[n]).initialRate = false := by
    simp [Profile.rateDisagrees]
  have marked := markDefaulted_where (s := s) (ch := ch) ((s.profiles[n]).rateDisagrees = true) n
  rw [Bool.decide_eq_true] at marked
  have notices : (if (s.profiles[n]).rateDisagrees = true ∧ (s.profiles[n]).defaulted = false
      then [NoticeBody.configDefaulted ch] else []) = _ :=
    if_congr ((and_congr_left' bad).trans and_comm) rfl rfl
  rw [notices] at marked
  exact marked

/-- A profile with its marker judged at OPEN (R167). -/
def Profile.judgedRate (p : Profile) : Profile := { p with defaulted := p.defaulted || !p.rateSet.mem p.initialRate }

/-- The state in which an accepted OPEN finds its conditions. -/
structure State.Opened (s : State) (v : OpenValues) (c : Context) (notices : List NoticeBody) (u : State) : Prop where
  chan : u.chan = s.chan.set v.chan (some c)
  tagMap : u.tagMap = s.tagMap.set v.tag (some v.chan)
  hw : u.hw = { s.hw with bindings := s.hw.bindings.set (slotNo v.highway v.timeslot) (some v.chan) }
  eng : u.eng = { s.eng with buckets := raiseBucket (smallestBucket s.eng.buckets) 2 s.eng.buckets }
  link : u.link = s.link.markLeftOver v.chan
  faultFrames : u.faultFrames = s.faultFrames.set v.chan 0
  profiles : u.profiles = s.profiles.set v.profile (s.profiles[v.profile]).judgedRate
  history : u.history = s.history
  settings : u.settings = s.settings
  mode : u.mode = s.mode
  due : u.due = s.due
  ctl : u.ctl = (s.notifyAll notices).ctl

theorem exec_open_of_passed {s : State} {o : Message} {v : OpenValues} (ready : OrderReady s o) (kind : o.kind = 0x08)
    (length : o.body.length = 6) (service : s.mode = .service) (passed : s.checkOpen o = .ok v) :
    ∃ u, exec .openCall s = .next ((u.openConditions v.chan).answer o .ok [byte (openPhase s.eng.buckets v.chan).val]) ∧
      s.takeOrder.Opened v
        (openContext v (s.profiles[v.profile]).judgedRate (openPhase s.eng.buckets v.chan) s.hw.c)
        (if (s.profiles[v.profile]).defaulted = false ∧
          (s.profiles[v.profile]).rateSet.mem (s.profiles[v.profile]).initialRate = false
        then [.configDefaulted v.chan] else []) u := by
  have run := openCall_of_ready ready kind length
  rw [if_pos service, State.orderOpen, checkOpen_takeOrder, passed] at run
  dsimp only at run
  rw [markedAtOpen_eq] at run
  refine ⟨_, run, ?_⟩
  have profile := set_getElem_fin_self s.profiles v.profile (s.profiles[v.profile]).judgedRate
  exact ⟨congrArg (fun p => s.chan.set v.chan (some (openContext v p (openPhase s.eng.buckets v.chan) s.hw.c))) profile,
    rfl, rfl, rfl, rfl, rfl, rfl, rfl, rfl, rfl, rfl, rfl⟩

/-- The initial rate of a call, whether or not the profile's rates agree (R6, R167). -/
theorem openRate_eq (p : Profile) : some p.judgedRate.openRate =
    if p.rateSet.mem p.initialRate then some p.initialRate else p.rateSet.highest.or (some p.initialRate) := by
  have same : p.judgedRate.openRate = p.openRate := rfl
  rw [same, Profile.openRate, Profile.rateDisagrees]
  cases p.rateSet.mem p.initialRate with
  | true => rfl
  | false =>
    simp only [Bool.not_false, if_true, Bool.false_eq_true, if_false]
    cases p.rateSet.highest <;> rfl

/-- Settles O54: the call as it is set up, then the conditions it is opened in. -/
theorem openSetsUpTheCall : Obligations.OpenSetsUpTheCall := by
  intro s o ch tag h n p b ready kind body service load free unused on usable unbound least lowest prof phi first agrees
    found reports told left
  have bucket : smallestBucket s.eng.buckets = b := smallestBucket_eq least lowest
  have phase : (openPhase s.eng.buckets ch).val = phi := openPhase_val bucket ch
  have passed := checkOpen_of_passed body load free unused on usable unbound
  obtain ⟨u, run, opened⟩ := exec_open_of_passed ready kind (by rw [body]; rfl) service passed
  generalize hc : openContext ⟨ch, tag, h, n, p⟩ (s.profiles[p]).judgedRate (openPhase s.eng.buckets ch) s.hw.c = c at opened
  have fresh (k : FaultKind) : c.fault k = .fresh := by
    rw [← hc]
    exact openContext_fault _ _ _ k
  have self : u.chan[ch] = some c := by
    rw [opened.chan]
    exact set_getElem_fin_self _ _ _
  have prof' : u.profileOf c = prof.judgedRate := by
    have number : c.profile = p := by rw [← hc]; rfl
    rw [State.profileOf, opened.profiles]
    simp only [number]
    exact set_getElem_fin_self _ _ _
  obtain ⟨d, chan, frame, ctl, history, touched, others, highway, link, frames, quiet⟩ :=
    openConditions_summary self fresh (by rw [← hc]; rfl) (by rw [← hc]; rfl)
  have sync : u.hw.sync = s.hw.sync := by rw [opened.hw]; rfl
  have down : u.link.state = s.link.state := by rw [opened.link, markLeftOver_eq]; rfl
  have reports' : u.openFound.flatMap ((u.profileOf c).openReport ch) = reports := by
    rw [prof', State.openFound, sync, down]
    rfl
  rw [reports'] at ctl history
  have told' : (u.openConditions ch).ctl = (s.takeOrder.notifyAll ((if prof.defaulted = false ∧ agrees = false
      then [.configDefaulted ch] else []) ++ reports.map FaultReport.notice)).ctl := by
    rw [ctl, notifyAll_append, notifyAll_ctl, opened.ctl, opened.settings, opened.hw, notifyAll_ctl _ (State.notifyAll _ _),
      notifyAll_eq]
  have answered := answer_ctl_after s (u.openConditions ch) _ told' o .ok [byte (openPhase s.eng.buckets ch).val]
  have reply : answerTo o .ok [byte (openPhase s.eng.buckets ch).val] = ⟨0x88, o.tag, [0, byte phi]⟩ := by
    rw [answerTo, kind, phase]
    rfl
  rw [reply] at answered
  have before : u.historyAfter reports = s.historyAfter reports := by
    rw [State.historyAfter, opened.history, opened.settings, opened.hw]
    rfl
  refine ⟨_, d, run, ?_, fun e he => ?_, ?_, ?_, ?_, ?_, ?_, ?_, ?_, ?_, ?_, ?_, ?_, answered, ?_⟩
  · exact (congrArg (·[ch]) chan).trans (set_getElem_fin_self _ _ _)
  · obtain ⟨kept, frames⟩ := frame.others e he
    refine ⟨kept.trans ?_, frames.trans ?_⟩
    · rw [opened.chan]
      exact set_getElem_fin_other _ _ _ _ he
    · rw [opened.faultFrames]
      exact set_getElem_fin_other _ _ _ _ he
  · exact frame.keeps.tagMap.trans opened.tagMap
  · exact frame.hw.trans opened.hw
  · refine frame.buckets.trans ?_
    rw [opened.eng, ← bucket]
    rfl
  · refine frame.load.trans ?_
    rw [opened.eng]
    rfl
  · exact frame.link.trans (opened.link.trans (markLeftOver_eq _ _))
  · exact frame.keeps.profiles.trans opened.profiles
  · exact (frame.keeps.mode.trans opened.mode).trans service
  · exact frame.keeps.settings.trans opened.settings
  · exact frame.due.trans opened.due
  · refine frames ?_
    rw [opened.faultFrames]
    exact set_getElem_fin_self _ _ _
  · exact history.trans before
  · rw [sync] at highway
    rw [down] at link
    rw [touched, ← hc]
    refine ⟨rfl, rfl, rfl, rfl, phase, phase, ?_, rfl, openRate_eq prof, rfl, rfl, rfl, rfl, rfl, rfl, rfl, rfl, rfl, rfl,
      rfl, rfl, rfl, rfl, rfl, rfl, rfl, rfl, rfl, rfl, rfl, rfl, rfl, rfl, rfl, rfl, rfl, rfl, rfl, rfl, rfl, rfl, rfl, rfl,
      rfl, rfl, rfl, rfl, rfl, rfl, rfl, rfl, rfl, others, highway, link, fun locked up => ?_⟩
    · exact congrArg (160 - ·) (by rw [firstBlock, phase])
    · obtain ⟨same, rfl⟩ := quiet (by rw [sync]; exact locked) (by rw [down]; exact up)
      rw [same, ← hc]
      exact ⟨rfl, opened.history, (congrArg EngineBlock.queue opened.eng).trans rfl⟩

end Sys2Proof.Machine
end

section
/-! PROOF. The period start's own work (R24, R26, R31, R32, R37, R48): the sync judgement, each channel's sample, events and
code, and O17, O18 and O19. -/

namespace Sys2Proof.Machine

/-! ## The highways in the events of a channel's cycle -/

theorem hw_foldl {α : Type} (f : State → α → State) (hf : ∀ s a, (f s a).hw = s.hw) (xs : List α) (s : State) :
    (xs.foldl f s).hw = s.hw :=
  List.foldlRecOn xs f (motive := fun t => t.hw = s.hw) rfl fun t kept a _ => (hf t a).trans kept

theorem hw_finish (s : State) : s.finish.hw = s.hw :=
  hw_foldl State.takeRest (fun t r => by
    cases r with
    | supervisionWindow ch => exact (supervised_supervisionWindowEnd ch t).hw
    | retryExpiry ch => exact (supervised_retryExpiry ch t).hw
    | observationWindow ch => exact (observed_observationWindowEnd ch t).hw) s.rest { s with rest := [] }

theorem hw_uplinkFinish (ch : Chan) (s : State) : (s.uplinkFinish ch).hw = s.hw := by
  unfold State.uplinkFinish
  cases s.chan[ch] <;> rfl

theorem hw_faultUplink (ch : Chan) (s : State) : (s.faultUplink ch).hw = s.hw := by
  unfold State.faultUplink
  cases s.chan[ch] with
  | none => rfl
  | some c =>
    dsimp only
    split
    · next kind payload _ => exact (placeFrame_frame ch kind none payload s).1.hw
    · rfl

theorem hw_startPlayout (ch : Chan) (s : State) : (s.startPlayout ch).hw = s.hw := by
  unfold State.startPlayout
  cases s.chan[ch] with
  | none => rfl
  | some c =>
    dsimp only
    split
    · split
      · exact modCtx_hw ch _ s
      · exact modCtx_hw ch _ s
    · rfl

theorem hw_serve (ch : Chan) (e : QueueEntry) (s : State) : (s.serve ch e).hw = s.hw := by
  unfold State.serve
  cases e.kind with
  | speech =>
    dsimp only
    unfold State.serveSpeech
    cases s.chan[ch] with
    | none => rfl
    | some c =>
      dsimp only
      cases c.state with
      | faulted => exact modCtx_hw ch _ s
      | aligning | active | closing =>
        dsimp only
        split
        · exact (countMiss_frame ch .decode _).1.hw.trans (modCtx_hw ch _ s)
        · exact (worked_submit _ _ _).hw.trans (modCtx_hw ch _ s)
  | sid | noData => exact modCtx_hw ch _ s
  | endCall => exact modCtx_hw ch _ s

theorem hw_playHead (ch : Chan) (s : State) : (s.playHead ch).hw = s.hw := by
  unfold State.playHead
  cases s.chan[ch] with
  | none => rfl
  | some c =>
    dsimp only
    cases c.playout with
    | waiting => exact modCtx_hw ch _ s
    | playing =>
      cases c.queue with
      | nil => exact modCtx_hw ch _ s
      | cons e rest =>
        dsimp only
        split
        · exact (hw_serve ch e _).trans (modCtx_hw ch _ s)
        · exact modCtx_hw ch _ s

theorem hw_downlinkBoundary (ch : Chan) (s : State) : (s.downlinkBoundary ch).hw = s.hw := by
  have moved : ∀ (before : List FaultKind) (t : State), (t.moveWindow ch before).hw = t.hw := fun before t => by
    unfold State.moveWindow
    cases t.chan[ch] <;> rfl
  unfold State.downlinkBoundary
  cases s.chan[ch] with
  | none => rfl
  | some c =>
    dsimp only
    cases c.state with
    | closing => exact modCtx_hw ch _ s
    | aligning | active | faulted =>
      exact (moved _ _).trans <| (hw_playHead ch _).trans <|
        (hw_startPlayout ch _).trans (supervised_raiseStarvation ch s).hw

theorem hw_chooseOutput (ch : Chan) (s : State) : (s.chooseOutput ch).hw = s.hw := by
  have missed : (s.missAtBlockStart ch).hw = s.hw := by
    unfold State.missAtBlockStart
    cases s.chan[ch] with
    | none => rfl
    | some c =>
      dsimp only
      split
      · exact (missJob_frame ch .decode _).1.hw
      · rfl
  exact (modCtx_hw ch _ _).trans missed

/-- Between the clock's move and the codes no timeslot comes to be driven (R37). -/
def Undriving (s t : State) : Prop := ∀ n : SlotNo, s.hw.driven[n] = none → t.hw.driven[n] = none

theorem undriving_of_hw {s t : State} (h : t.hw = s.hw) : Undriving s t := fun n hn => by rw [h]; exact hn

theorem Undriving.trans {s t u : State} (h : Undriving s t) (k : Undriving t u) : Undriving s u := fun n hn => k n (h n hn)

theorem undriving_boundaryRun {ch : Chan} {s t : State} (h : BoundaryRun ch s t) : Undriving s t := by
  cases h with
  | encode hd => exact undriving_of_hw ((hw_uplinkFinish ch _).trans (worked_submit _ _ _).hw)
  | faulted =>
    rw [echoFaultFrame_touches]
    exact undriving_of_hw ((hw_uplinkFinish ch _).trans (hw_faultUplink ch s))
  | @closing d hd closing =>
    refine (undriving_of_hw (placeFrame_frame ch .endCall none [] s).1.hw).trans fun n hn => ?_
    rw [closed_touches]
    change (((s.placeFrame ch .endCall none []).hw.driven.set (slotNo d.highway d.timeslot) none)[n]) = none
    rw [set_getElem_fin]
    split
    · rfl
    · exact hn

theorem undriving_uplinkBoundary (ch : Chan) (s : State) : Undriving s (s.uplinkBoundary ch) := by
  cases hc : s.chan[ch] with
  | none => rw [uplinkBoundary_of_free hc]; exact fun _ => id
  | some c =>
    have settled : Undriving s (s.setCtx ch (c.settleRate (s.profileOf c).rateSet)) := undriving_of_hw rfl
    exact settled.trans (undriving_boundaryRun (boundaryRun hc))

theorem undriving_takeAhead (wasLost : Bool) (codes : HighwayCodes) (s : State) (d : Due) :
    Undriving s (s.takeAhead wasLost codes d) := by
  cases d with
  | uplink ch =>
    have written : (s.writeSample wasLost codes ch).hw = s.hw := by
      unfold State.writeSample
      cases s.chan[ch] with
      | none => rfl
      | some c =>
        dsimp only
        split
        · exact modCtx_hw ch _ s
        · rfl
    refine (undriving_of_hw written).trans (Undriving.trans ?_ (undriving_of_hw (hw_finish _)))
    generalize s.writeSample wasLost codes ch = t
    unfold State.takeIfDue
    split
    · have taken : Undriving t { t with due := t.due.filter fun x => x ≠ .uplink ch } := undriving_of_hw rfl
      exact taken.trans (undriving_uplinkBoundary ch _)
    · exact fun _ => id
  | downlink ch =>
    simp only [State.takeAhead]
    split
    · exact undriving_of_hw ((hw_finish _).trans (hw_downlinkBoundary ch _))
    · exact fun _ => id
  | blockStart ch =>
    simp only [State.takeAhead]
    split
    · exact undriving_of_hw (hw_chooseOutput ch _)
    · exact fun _ => id
  | loadWindowEnd => exact fun _ => id

/-- No timeslot is driven when the period start does its own work (R37). -/
theorem driven_beginPeriod (codes : HighwayCodes) (s : State) (n : SlotNo) : (s.beginPeriod codes).hw.driven[n] = none := by
  have all := List.foldlRecOn s.ahead (State.takeAhead (s.hw.sync = .lost) codes)
    (motive := Undriving { s with hw := s.hw.advance }) (fun _ => id)
    fun t kept d _ => kept.trans (undriving_takeAhead _ codes t d)
  refine all n ?_
  change (Vector.replicate 256 (none : Option Byte))[n] = none
  simp

/-! ## The sync judgement -/

section judge

variable (good : Bool) (s : State)

/-- The sync state judged at a period start (R24). -/
def State.syncAfter : SyncState := (s.hw.judged good).sync

/-- The context of a channel once the sync state has been judged (R26, R146). -/
def State.syncedIn (c : Context) : Context :=
  if s.syncAfter good = s.hw.sync then c
  else if s.syncAfter good = .lost then s.foundIn .highway c
  else if s.hw.sync = .lost then c.absent .highway
  else c

/-- The notice of a change of the sync state (R26). -/
def State.syncNotices : List NoticeBody := if s.syncAfter good = s.hw.sync then [] else [.syncState (s.syncAfter good)]

/-- The reports of entering LOST (R26). -/
def State.syncReports : List FaultReport :=
  if s.hw.sync ≠ .lost ∧ s.syncAfter good = .lost then s.raisedByAll .highway else []

/-- What the sync judgement leaves alone, beside its contexts, notices and records. -/
structure Judged (s t : State) : Prop where
  hw : t.hw = s.hw.judged good
  due : t.due = s.due
  ahead : t.ahead = s.ahead
  load : t.eng.load = s.eng.load
  profiles : t.profiles = s.profiles
  settings : t.settings = s.settings

theorem judgeSync_cases : s.judgeSync good =
    let moved : State := { s with hw := s.hw.judged good }
    let told := moved.notify (.syncState (s.syncAfter good))
    if s.syncAfter good = s.hw.sync then moved
    else if s.syncAfter good = .lost then told.forEachOpen fun ch x => x.findPresent ch .highway
    else if s.hw.sync = .lost then told.forEachOpen fun ch x => x.setAbsent ch .highway
    else told := by
  have sync : (s.hw.countRuns good).sync = s.hw.sync := by cases good <;> rfl
  unfold State.judgeSync State.syncAfter HighwayBlock.judged
  dsimp only
  rw [sync]

variable {good} in
theorem judged_of_worked {s t u : State} (h : Judged good s t) (k : Worked t u) (load : u.eng.load = t.eng.load) :
    Judged good s u :=
  ⟨k.hw.trans h.hw, k.due.trans h.due, k.keeps.ahead.trans h.ahead, load.trans h.load, k.keeps.profiles.trans h.profiles,
    k.keeps.settings.trans h.settings⟩

/-- The sync judgement as its notice, then the findings or absences of a change (R24, R26). -/
theorem judgeSync_eq :
    Judged good s (s.judgeSync good) ∧ (∀ ch : Chan, (s.judgeSync good).chan[ch] = (s.chan[ch]).map (s.syncedIn good)) ∧
      (s.judgeSync good).ctl = (s.notifyAll (s.syncNotices good ++ (s.syncReports good).map FaultReport.notice)).ctl ∧
      (s.judgeSync good).history = s.historyAfter (s.syncReports good) := by
  have cycle : (s.hw.judged good).cycle = s.hw.cycle := by rw [judged_eq]
  have run := judgeSync_cases good s
  have base : Judged good s { s with hw := s.hw.judged good } := ⟨rfl, rfl, rfl, rfl, rfl, rfl⟩
  have same_told (bs : List NoticeBody) : (({ s with hw := s.hw.judged good } : State).notifyAll bs).ctl = (s.notifyAll bs).ctl := by
    rw [notifyAll_ctl, notifyAll_ctl, cycle]
  have same_recorded (rs : List FaultReport) :
      ({ s with hw := s.hw.judged good } : State).historyAfter rs = s.historyAfter rs := by
    rw [State.historyAfter, State.historyAfter, cycle]
  generalize hmoved : ({ s with hw := s.hw.judged good } : State) = moved at run base same_told same_recorded
  have chan (ch : Chan) : moved.chan[ch] = s.chan[ch] := by rw [← hmoved]
  have all : moved.raisedByAll .highway = s.raisedByAll .highway := by rw [← hmoved]; rfl
  have told : Judged good s (moved.notify (.syncState (s.syncAfter good))) :=
    ⟨base.hw, base.due, base.ahead, base.load, base.profiles, base.settings⟩
  have one : (moved.notify (.syncState (s.syncAfter good))).ctl = (s.notifyAll [.syncState (s.syncAfter good)]).ctl :=
    same_told [.syncState (s.syncAfter good)]
  by_cases same : s.syncAfter good = s.hw.sync
  · have reports : s.syncReports good = [] := if_neg fun ⟨was, is⟩ => was (same.symm.trans is)
    have notices : s.syncNotices good = [] := if_pos same
    have kept : s.syncedIn good = id := funext fun c => if_pos same
    rw [run, reports, notices]
    dsimp only
    rw [if_pos same]
    exact ⟨base, fun ch => by rw [chan, kept, Option.map_id]; rfl, same_told [], same_recorded []⟩
  have notices : s.syncNotices good = [.syncState (s.syncAfter good)] := if_neg same
  by_cases lost : s.syncAfter good = .lost
  · have was : s.hw.sync ≠ .lost := fun was => same (lost.trans was.symm)
    have reports : s.syncReports good = s.raisedByAll .highway := if_pos ⟨was, lost⟩
    have found (c : Context) : s.syncedIn good c = s.foundIn .highway c := (if_neg same).trans (if_pos lost)
    obtain ⟨chans, ctl, history⟩ := findPresentAll_eq (moved.notify (.syncState (s.syncAfter good))) .highway
    obtain ⟨frame, -, load⟩ := forEachOpen_worked (s := moved.notify (.syncState (s.syncAfter good)))
      fun ch t => supervised_findPresent ch .highway t
    dsimp only at run
    rw [run, if_neg same, if_pos lost, reports, notices]
    refine ⟨judged_of_worked told frame load, fun ch => ?_, ?_, ?_⟩
    · rw [chans, notify_chan, chan, funext found]
      exact congrArg (fun f => (s.chan[ch]).map f) (funext fun c => foundIn_congr base.profiles .highway c)
    · rw [ctl, notifyAll_append, ← all, notifyAll_ctl, one, notify_settings, notify_hw, base.settings, base.hw, cycle,
        notifyAll_ctl _ (State.notifyAll _ s), notifyAll_eq]
      rfl
    · rw [history, ← all]
      exact same_recorded _
  have reports : s.syncReports good = [] := if_neg fun both => lost both.2
  dsimp only at run
  rw [if_neg same, if_neg lost] at run
  rw [run, reports, notices]
  by_cases was : s.hw.sync = .lost
  · have absent (c : Context) : s.syncedIn good c = c.absent .highway := (if_neg same).trans ((if_neg lost).trans (if_pos was))
    obtain ⟨chans, ctl, history, -⟩ := setAbsentAll_eq (moved.notify (.syncState (s.syncAfter good))) .highway
    obtain ⟨frame, -, load⟩ := forEachOpen_worked (s := moved.notify (.syncState (s.syncAfter good)))
      fun ch t => supervised_setAbsent ch .highway t
    rw [if_pos was, funext absent]
    exact ⟨judged_of_worked told frame load, fun ch => by rw [chans, notify_chan, chan], ctl.trans one,
      history.trans (same_recorded [])⟩
  · have kept : s.syncedIn good = id := funext fun c => (if_neg same).trans ((if_neg lost).trans (if_neg was))
    rw [if_neg was]
    exact ⟨told, fun ch => by rw [notify_chan, chan, kept, Option.map_id]; rfl, one, same_recorded []⟩

end judge

/-! ## A channel's work at a period start -/

section work

variable (wasLost : Bool) (codes : HighwayCodes) (ch : Chan) (s : State)

/-- The context after the gain down has been taken and the sample written (R31, R48). -/
def State.writtenIn (c : Context) : Context :=
  if .uplink ch ∈ s.ahead then c.latchGain
  else if c.fresh then { c.latchGain with fresh := false }
  else c.latchGain.writeSample (s.lawOf c) (receivedCode wasLost (s.lawOf c) (slotNo c.highway c.timeslot) codes)

/-- The events a period start raises for a channel (R31, R32). -/
def State.raisedAt (c : Context) : List Due :=
  (if .uplink ch ∉ s.ahead ∧ c.fresh = false ∧ c.nUp + 1 = c.blockLen then [.uplink ch] else [])
    ++ (if s.hw.c = c.phiDn ∧ .downlink ch ∉ s.ahead then [.downlink ch] else [])
    ++ (if s.hw.c = phaseAdd c.phiDn 32 ∧ .blockStart ch ∉ s.ahead then [.blockStart ch] else [])

/-- Whether the code of this period is left to an event that falls now (R13, R34, R37). -/
abbrev State.waitsAt (c : Context) : Prop :=
  .blockStart ch ∈ s.due ++ s.raisedAt ch c ∨ c.state = .closing ∧ .uplink ch ∈ s.due ++ s.raisedAt ch c

/-- The context a period start leaves (R31, R37, R48). -/
def State.periodIn (c : Context) : Context :=
  if s.waitsAt ch c then s.writtenIn wasLost codes ch c else (s.writtenIn wasLost codes ch c).countSent s.hw.c

variable {ch s} {c : Context}

theorem writtenIn_kept :
    let d := s.writtenIn wasLost codes ch c
    d.state = c.state ∧ d.highway = c.highway ∧ d.timeslot = c.timeslot ∧ d.phiDn = c.phiDn ∧ d.output = c.output ∧
      d.block = c.block ∧ d.gainNow = c.gainDn ∧ d.faults = c.faults ∧ d.satDnWin = c.satDnWin ∧
      d.stats.satDn = c.stats.satDn := by
  intro d
  unfold d State.writtenIn
  split
  · exact ⟨rfl, rfl, rfl, rfl, rfl, rfl, rfl, rfl, rfl, rfl⟩
  split
  · exact ⟨rfl, rfl, rfl, rfl, rfl, rfl, rfl, rfl, rfl, rfl⟩
  · refine ⟨rfl, rfl, rfl, rfl, rfl, rfl, rfl, rfl, rfl, ?_⟩
    unfold Context.writeSample
    dsimp only
    split <;> rfl

theorem mem_raisedAt {d : Due} : d ∈ s.raisedAt ch c ↔
    (.uplink ch ∉ s.ahead ∧ c.fresh = false ∧ c.nUp + 1 = c.blockLen) ∧ d = .uplink ch ∨
      (s.hw.c = c.phiDn ∧ .downlink ch ∉ s.ahead) ∧ d = .downlink ch ∨
      (s.hw.c = phaseAdd c.phiDn 32 ∧ .blockStart ch ∉ s.ahead) ∧ d = .blockStart ch := by
  unfold State.raisedAt
  simp only [List.mem_append, List.mem_ite_nil_right, List.mem_singleton, or_assoc]

/-- The sample write, with the boundary it raises (R31). -/
theorem written_eq (h : s.chan[ch] = some c) :
    (if .uplink ch ∈ s.ahead then s.modCtx ch Context.latchGain
      else (s.modCtx ch Context.latchGain).writeSample wasLost codes ch) =
      { s.setCtx ch (s.writtenIn wasLost codes ch c) with
        due := s.due ++ if .uplink ch ∉ s.ahead ∧ c.fresh = false ∧ c.nUp + 1 = c.blockLen then [.uplink ch] else [] } := by
  rw [modCtx_eq ch c s _ h]
  by_cases ahead : .uplink ch ∈ s.ahead
  · have unraised : ¬ (.uplink ch ∉ s.ahead ∧ c.fresh = false ∧ c.nUp + 1 = c.blockLen) := fun all => all.1 ahead
    rw [if_pos ahead, if_neg unraised, State.writtenIn, if_pos ahead, List.append_nil]
    rfl
  rw [if_neg ahead, State.writtenIn, if_neg ahead, writeSample_eq (setCtx_chan_self ch c.latchGain s)]
  dsimp only
  rw [setCtx_setCtx, setCtx_setCtx]
  by_cases fresh : c.fresh = true
  · have unraised : ¬ (.uplink ch ∉ s.ahead ∧ c.fresh = false ∧ c.nUp + 1 = c.blockLen) := fun all =>
      Bool.noConfusion (all.2.1.symm.trans fresh)
    rw [if_pos (show c.latchGain.fresh = true from fresh), if_neg unraised, if_pos fresh, List.append_nil]
    rfl
  · have fills : (.uplink ch ∉ s.ahead ∧ c.fresh = false ∧ c.nUp + 1 = c.blockLen) ↔ c.latchGain.nUp + 1 = c.latchGain.blockLen :=
      ⟨fun all => all.2.2, fun full => ⟨ahead, Bool.eq_false_iff.mpr fresh, full⟩⟩
    rw [if_neg (show ¬ c.latchGain.fresh = true from fresh), if_neg fresh, if_congr fills rfl rfl]
    split
    · rfl
    · rw [List.append_nil]
      rfl

/-- The events raised by C, beside the uplink boundary (R32). -/
theorem raiseEvents_eq {d : Context} (h : s.chan[ch] = some d) (phase : d.phiDn = c.phiDn) : s.raiseEvents ch = { s with
    due := s.due ++ (if s.hw.c = c.phiDn ∧ .downlink ch ∉ s.ahead then [.downlink ch] else [])
      ++ if s.hw.c = phaseAdd c.phiDn 32 ∧ .blockStart ch ∉ s.ahead then [.blockStart ch] else [] } := by
  have down : (d.downlinkAt s.hw.c && !s.ahead.contains (.downlink ch)) = true ↔
      s.hw.c = c.phiDn ∧ .downlink ch ∉ s.ahead := by
    simp [Context.downlinkAt, phase]
  have start : (d.blockStartAt s.hw.c && !s.ahead.contains (.blockStart ch)) = true ↔
      s.hw.c = phaseAdd c.phiDn 32 ∧ .blockStart ch ∉ s.ahead := by
    simp [Context.blockStartAt, phase]
  simp only [State.raiseEvents, h, down, start]

/-- A channel's work at a period start in one (R31, R32, R37, R48). -/
theorem channelPeriod_of_open (h : s.chan[ch] = some c) : s.channelPeriod wasLost codes ch =
    { s.setCtx ch (s.periodIn wasLost codes ch c) with
      due := s.due ++ s.raisedAt ch c
      hw := { s.hw with
        driven := if s.waitsAt ch c then s.hw.driven else s.drivenBy (s.writtenIn wasLost codes ch c) } } := by
  obtain ⟨state, -, -, phase, -⟩ := writtenIn_kept wasLost codes (s := s) (ch := ch) (c := c)
  rw [channelPeriod_eq, written_eq wasLost codes h, State.periodIn]
  generalize s.writtenIn wasLost codes ch c = d at state phase ⊢
  have self := setCtx_chan_self ch d s
  obtain ⟨r, hr⟩ : ∃ r, r = { s.setCtx ch d with due := s.due ++ s.raisedAt ch c } := ⟨_, rfl⟩
  have raised : State.raiseEvents ch { s.setCtx ch d with
      due := s.due ++ if .uplink ch ∉ s.ahead ∧ c.fresh = false ∧ c.nUp + 1 = c.blockLen then [.uplink ch] else [] } = r := by
    refine (raiseEvents_eq (c := c) (s := { s.setCtx ch d with
      due := s.due ++ if .uplink ch ∉ s.ahead ∧ c.fresh = false ∧ c.nUp + 1 = c.blockLen then [.uplink ch] else [] })
      self phase).trans ?_
    rw [hr, State.raisedAt, ← List.append_assoc, ← List.append_assoc]
    rfl
  have called : r.chan[ch] = some d := by rw [hr]; exact self
  have waits : r.sendsNow ch = true ↔ ¬ s.waitsAt ch c := by
    have due : r.due = s.due ++ s.raisedAt ch c := by rw [hr]
    simp only [State.sendsNow, called, due, state, State.waitsAt, Bool.and_eq_true, Bool.not_eq_true', ← Bool.not_eq_true,
      List.contains_iff_mem, decide_eq_true_eq, not_or]
  unfold State.raiseAndSend
  dsimp only
  rw [raised]
  by_cases w : s.waitsAt ch c
  · rw [if_neg (mt waits.mp (not_not.mpr w)), if_pos w, if_pos w, hr]
    rfl
  · rw [if_pos (waits.mpr w), if_neg w, if_neg w, sendCode_eq called, hr]
    simp only [State.setCtx, Vector.set_set]
    rfl

end work

/-! ## The channels' work, channel by channel -/

section all

variable {wasLost : Bool} {codes : HighwayCodes}

/-- The code a period start drives for a channel (R37). -/
def State.codeIn (wasLost : Bool) (codes : HighwayCodes) (ch : Chan) (s : State) (c : Context) : Option Byte :=
  if s.hw.sync = .lost then none else some ((s.writtenIn wasLost codes ch c).codeNow (s.lawOf c) s.hw.c)

/-- What the work of these channels leaves of a state. -/
structure PeriodDone (wasLost : Bool) (codes : HighwayCodes) (cs : List Chan) (s t : State) : Prop where
  frame : t = { s with chan := t.chan, due := t.due, hw := { s.hw with driven := t.hw.driven } }
  chan : ∀ ch : Chan, t.chan[ch] = if ch ∈ cs then (s.chan[ch]).map (s.periodIn wasLost codes ch) else s.chan[ch]
  due : ∀ d, d ∈ t.due ↔ d ∈ s.due ∨ ∃ ch ∈ cs, ∃ c, s.chan[ch] = some c ∧ d ∈ s.raisedAt ch c
  undriven : ∀ n : SlotNo, (∀ ch ∈ cs, ∀ c, s.chan[ch] = some c → slotNo c.highway c.timeslot ≠ n) →
    t.hw.driven[n] = s.hw.driven[n]
  driven : ∀ ch ∈ cs, ∀ c, s.chan[ch] = some c →
    (∀ d ∈ cs, ∀ x, s.chan[d] = some x → slotNo x.highway x.timeslot = slotNo c.highway c.timeslot → d = ch) →
    t.hw.driven[slotNo c.highway c.timeslot] =
      if s.waitsAt ch c then s.hw.driven[slotNo c.highway c.timeslot] else s.codeIn wasLost codes ch c

/-- States that a channel's work reads alike. -/
structure ReadsAlike (ch : Chan) (a b : State) : Prop where
  c : b.hw.c = a.hw.c
  sync : b.hw.sync = a.hw.sync
  records : b.hw.records = a.hw.records
  ahead : b.ahead = a.ahead
  uplink : .uplink ch ∈ b.due ↔ .uplink ch ∈ a.due
  blockStart : .blockStart ch ∈ b.due ↔ .blockStart ch ∈ a.due

variable {ch : Chan} {a b : State} {c : Context}

theorem ReadsAlike.lawOf (h : ReadsAlike ch a b) : b.lawOf c = a.lawOf c := by rw [State.lawOf, State.lawOf, h.records]

theorem ReadsAlike.raisedAt (h : ReadsAlike ch a b) : b.raisedAt ch c = a.raisedAt ch c := by
  rw [State.raisedAt, State.raisedAt, h.c, h.ahead]

theorem ReadsAlike.waitsAt (h : ReadsAlike ch a b) : b.waitsAt ch c ↔ a.waitsAt ch c := by
  simp only [State.waitsAt, List.mem_append, h.raisedAt, h.uplink, h.blockStart]

theorem ReadsAlike.writtenIn (h : ReadsAlike ch a b) : b.writtenIn wasLost codes ch c = a.writtenIn wasLost codes ch c := by
  rw [State.writtenIn, State.writtenIn, h.ahead, h.lawOf]

theorem ReadsAlike.periodIn (h : ReadsAlike ch a b) : b.periodIn wasLost codes ch c = a.periodIn wasLost codes ch c := by
  rw [State.periodIn, State.periodIn, h.writtenIn, h.c]
  exact if_congr h.waitsAt rfl rfl

theorem ReadsAlike.codeIn (h : ReadsAlike ch a b) : b.codeIn wasLost codes ch c = a.codeIn wasLost codes ch c := by
  rw [State.codeIn, State.codeIn, h.writtenIn, h.sync, h.lawOf, h.c]

/-- One channel's work leaves what the others read. -/
theorem readsAlike_channelPeriod {d : Chan} (h : a.chan[d] = some c) (other : ch ≠ d) :
    ReadsAlike ch a (a.channelPeriod wasLost codes d) := by
  have none (x : Due) (hx : x ≠ .uplink d ∧ x ≠ .downlink d ∧ x ≠ .blockStart d) : x ∉ a.raisedAt d c := fun hm => by
    rcases mem_raisedAt.mp hm with ⟨-, e⟩ | ⟨-, e⟩ | ⟨-, e⟩
    · exact hx.1 e
    · exact hx.2.1 e
    · exact hx.2.2 e
  rw [channelPeriod_of_open wasLost codes h]
  refine ⟨rfl, rfl, rfl, rfl, ?_, ?_⟩
  · exact List.mem_append.trans (or_iff_left (none _ (by simp [other])))
  · exact List.mem_append.trans (or_iff_left (none _ (by simp [other])))

theorem drivenBy_written (ch : Chan) : a.drivenBy (a.writtenIn wasLost codes ch c) =
    a.hw.driven.set (slotNo c.highway c.timeslot) (a.codeIn wasLost codes ch c) := by
  obtain ⟨-, highway, timeslot, -⟩ := writtenIn_kept wasLost codes (s := a) (ch := ch) (c := c)
  have law : a.lawOf (a.writtenIn wasLost codes ch c) = a.lawOf c := congrArg (fun h => (a.hw.records[h]).law) highway
  simp only [State.drivenBy, State.codeIn, law, highway, timeslot]

/-- A channel's work drives its own timeslot alone (R37). -/
theorem driven_channelPeriod (h : a.chan[ch] = some c) (n : SlotNo) : (a.channelPeriod wasLost codes ch).hw.driven[n] =
    if slotNo c.highway c.timeslot = n ∧ ¬ a.waitsAt ch c then a.codeIn wasLost codes ch c else a.hw.driven[n] := by
  have run := congrArg (fun t => t.hw.driven[n]) (channelPeriod_of_open wasLost codes h)
  refine run.trans ?_
  dsimp only
  rw [drivenBy_written]
  by_cases w : a.waitsAt ch c
  · rw [if_pos w, if_neg fun both => both.2 w]
  · rw [if_neg w, set_getElem_fin]
    exact if_congr ⟨fun e => ⟨e.symm, w⟩, fun both => both.1.symm⟩ rfl rfl

theorem periodDone_foldl : ∀ (cs : List Chan) (s : State), cs.Nodup → (∀ ch ∈ cs, (s.chan[ch]).isSome) →
    PeriodDone wasLost codes cs s (cs.foldl (fun x ch => x.channelPeriod wasLost codes ch) s)
  | [], s, _, _ =>
    ⟨rfl, fun _ => (if_neg List.not_mem_nil).symm, fun d => by simp, fun _ _ => rfl, fun _ h => absurd h List.not_mem_nil⟩
  | d :: cs, s, once, called => by
    obtain ⟨fresh, once⟩ := List.nodup_cons.mp once
    obtain ⟨x, hx⟩ := Option.isSome_iff_exists.mp (called d List.mem_cons_self)
    have first := channelPeriod_of_open wasLost codes hx
    have others (ch : Chan) (h : ch ≠ d) : (s.channelPeriod wasLost codes d).chan[ch] = s.chan[ch] := by
      rw [first]
      exact setCtx_chan_other d _ s h
    have self : (s.channelPeriod wasLost codes d).chan[d] = some (s.periodIn wasLost codes d x) := by
      rw [first]
      exact setCtx_chan_self d _ s
    have apart (ch : Chan) (h : ch ∈ cs) : ch ≠ d := fun e => fresh (e ▸ h)
    have alike (ch : Chan) (h : ch ∈ cs) := readsAlike_channelPeriod (wasLost := wasLost) (codes := codes) hx (apart ch h)
    have rest := periodDone_foldl cs (s.channelPeriod wasLost codes d) once
      fun ch h => by rw [others ch (apart ch h)]; exact called ch (List.mem_cons_of_mem d h)
    rw [List.foldl_cons]
    generalize cs.foldl (fun x ch => x.channelPeriod wasLost codes ch) (s.channelPeriod wasLost codes d) = t at rest ⊢
    have slots (n : SlotNo) (away : slotNo x.highway x.timeslot ≠ n) :
        (s.channelPeriod wasLost codes d).hw.driven[n] = s.hw.driven[n] :=
      (driven_channelPeriod hx n).trans (if_neg fun both => away both.1)
    refine ⟨?_, fun ch => ?_, fun e => ?_, fun n away => ?_, fun ch hch c hc alone => ?_⟩
    · have frame := rest.frame
      rw [first] at frame
      exact frame
    · rw [rest.chan ch]
      by_cases same : ch = d
      · subst same
        rw [if_neg fresh, if_pos List.mem_cons_self, self, hx]
        rfl
      · rw [others ch same]
        by_cases later : ch ∈ cs
        · rw [if_pos later, if_pos (List.mem_cons_of_mem d later)]
          exact congrArg (fun f => (s.chan[ch]).map f) (funext fun c => (alike ch later).periodIn)
        · rw [if_neg later, if_neg fun h => (List.mem_cons.mp h).elim same later]
    · have due : (s.channelPeriod wasLost codes d).due = s.due ++ s.raisedAt d x := by rw [first]
      rw [rest.due e, due, List.mem_append, or_assoc]
      refine or_congr_right ⟨fun h => ?_, fun ⟨ch, hch, c, hc, hm⟩ => ?_⟩
      · rcases h with now | ⟨ch, hch, c, hc, hm⟩
        · exact ⟨d, List.mem_cons_self, x, hx, now⟩
        · rw [others ch (apart ch hch)] at hc
          rw [(alike ch hch).raisedAt] at hm
          exact ⟨ch, List.mem_cons_of_mem d hch, c, hc, hm⟩
      · rcases List.mem_cons.mp hch with rfl | hch
        · obtain rfl : c = x := Option.some_inj.mp (hc.symm.trans hx)
          exact .inl hm
        · exact .inr ⟨ch, hch, c, by rw [others ch (apart ch hch)]; exact hc, by rw [(alike ch hch).raisedAt]; exact hm⟩
    · refine (rest.undriven n fun ch hch c hc => ?_).trans (slots n (away d List.mem_cons_self x hx))
      rw [others ch (apart ch hch)] at hc
      exact away ch (List.mem_cons_of_mem d hch) c hc
    · rcases List.mem_cons.mp hch with rfl | later
      · obtain rfl : c = x := Option.some_inj.mp (hc.symm.trans hx)
        refine (rest.undriven _ fun e he y hy => ?_).trans ((driven_channelPeriod hx _).trans ?_)
        · rw [others e (apart e he)] at hy
          exact fun same => apart e he (alone e (List.mem_cons_of_mem ch he) y hy same)
        · by_cases w : s.waitsAt ch c
          · rw [if_neg fun both => both.2 w, if_pos w]
          · rw [if_pos ⟨rfl, w⟩, if_neg w]
      · have hm : (s.channelPeriod wasLost codes d).chan[ch] = some c := (others ch (apart ch later)).trans hc
        have away : slotNo x.highway x.timeslot ≠ slotNo c.highway c.timeslot := fun same =>
          apart ch later (alone d List.mem_cons_self x hx same).symm
        rw [rest.driven ch later c hm fun e he y hy same => alone e (List.mem_cons_of_mem d he) y
          ((others e (apart e he)).symm.trans hy) same, slots _ away, (alike ch later).codeIn]
        exact if_congr (alike ch later).waitsAt rfl rfl

end all

/-! ## The period start in one -/

section start

variable {i : Instr} {good wasLost : Bool} {tNs : Nat} {codes : HighwayCodes} {s u : State}

/-- The clock in which the period start does its own work (R27, R37). -/
theorem clock_atPeriodStart (hu : u = s.atPeriodStart tNs codes) :
    u.hw.c = s.hw.c + 1 ∧ u.hw.sync = s.hw.sync ∧ ∀ n : SlotNo, u.hw.driven[n] = none := by
  have ended : (s.atPeriodEnd tNs).standing = s.standing := (standing_endPeriod tNs s.finish).trans (standing_finish s)
  have begun : u.standing = { s.standing with hw := s.standing.hw.advance } := by
    rw [hu, State.atPeriodStart, standing_beginPeriod, ended]
  exact ⟨congrArg (·.hw.c) begun, congrArg (·.hw.sync) begun, fun n => by rw [hu]; exact driven_beginPeriod codes _ n⟩

/-- The wrap of C touches the load window and the event of its end alone. -/
theorem countWrap_touches (u : State) : u.countWrap = { u with eng := u.countWrap.eng, due := u.countWrap.due } := by
  unfold State.countWrap
  split <;> rfl

theorem countWrap_wraps (u : State) :
    u.countWrap.eng.load.wraps = if u.hw.c.val = 0 then u.eng.load.wraps - 1 else u.eng.load.wraps := by
  unfold State.countWrap
  split <;> rfl

theorem mem_countWrap_due (u : State) (d : Due) :
    d ∈ u.countWrap.due ↔ d ∈ u.due ∨ (u.hw.c.val = 0 ∧ u.eng.load.wraps ≤ 1) ∧ d = .loadWindowEnd := by
  rw [State.countWrap]
  by_cases wrap : u.hw.c.val = 0
  · rw [if_pos wrap, and_iff_right wrap]
    dsimp only
    by_cases last : u.eng.load.wraps - 1 = 0
    · rw [if_pos last, List.mem_append, List.mem_singleton, and_iff_right (by omega)]
    · rw [if_neg last, or_iff_left fun both => last (by omega)]
  · rw [if_neg wrap, or_iff_left fun both => wrap both.1.1]

/-- The state in which the channels do their work at a period start. -/
def State.readyFor (good : Bool) (u : State) : State := u.countWrap.judgeSync good

theorem exec_startsPeriod_done (starts : StartsPeriod i good tNs codes s) (hu : u = s.atPeriodStart tNs codes) :
    ∃ t, exec i s = .next { t with ahead := [] } ∧
      PeriodDone (u.hw.sync = .lost) codes (u.readyFor good).openChannels (u.readyFor good) t := by
  have sync : (s.atPeriodEnd tNs).hw.sync = u.hw.sync := by
    have ended : (s.atPeriodEnd tNs).standing = s.standing := (standing_endPeriod tNs s.finish).trans (standing_finish s)
    exact (congrArg (·.hw.sync) ended).trans (clock_atPeriodStart hu).2.1.symm
  refine ⟨_, (exec_of_startsPeriod starts).trans ?_, periodDone_foldl _ _ (nodup_openChannels _) fun ch h =>
    (mem_openChannels _ ch).mp h⟩
  rw [← sync, hu]
  rfl

/-- The part of the state the channels work on that is the sync judgement's, in the terms of the period start. -/
theorem readyFor_eq (good : Bool) (u : State) :
    Judged good u.countWrap (u.readyFor good) ∧
      (∀ ch : Chan, (u.readyFor good).chan[ch] = (u.chan[ch]).map (u.countWrap.syncedIn good)) := by
  obtain ⟨judged, chan, -⟩ := judgeSync_eq good u.countWrap
  exact ⟨judged, fun ch => (chan ch).trans (by rw [countWrap_touches])⟩

theorem moved_syncedIn (c : Context) : c.Moved (s.syncedIn good c) := by
  unfold State.syncedIn
  split
  · rfl
  split
  · exact moved_judgedIn s .highway true c
  split
  · exact moved_judgedIn s .highway false c
  · rfl

/-- What the channels' work leaves of the period start, beside the channels. -/
theorem period_frame {cs : List Chan} {t : State}
    (done : PeriodDone wasLost codes cs (u.readyFor good) t) :
    t.hw.c = u.hw.c ∧ t.hw.sync = u.countWrap.syncAfter good ∧ t.hw.cycle = u.hw.cycle ∧
      t.eng.load = u.countWrap.eng.load ∧ t.ctl = (u.readyFor good).ctl ∧ t.history = (u.readyFor good).history := by
  obtain ⟨judged, -⟩ := readyFor_eq good u
  have same : u.countWrap.hw = u.hw := by rw [countWrap_touches]
  have clock := judged_eq good u.hw
  rw [done.frame]
  dsimp only
  rw [judged.hw, judged.load, State.syncAfter, same]
  refine ⟨by rw [clock], rfl, by rw [clock], rfl, rfl, rfl⟩

/-- What the channels read of the period start is what it began with, but for the sync state. -/
theorem ready_reads (good : Bool) (u : State) : (u.readyFor good).hw.c = u.hw.c ∧
    (u.readyFor good).hw.sync = u.countWrap.syncAfter good ∧ (u.readyFor good).hw.records = u.hw.records ∧
    (u.readyFor good).hw.driven = u.hw.driven ∧ (u.readyFor good).ahead = u.ahead := by
  obtain ⟨judged, -⟩ := readyFor_eq good u
  have same : u.countWrap.hw = u.hw := by rw [countWrap_touches]
  have ahead : u.countWrap.ahead = u.ahead := by rw [countWrap_touches]
  rw [judged.hw, judged.ahead, State.syncAfter, same, ahead, judged_eq]
  exact ⟨rfl, rfl, rfl, rfl, rfl⟩

theorem ready_raisedAt (ch : Chan) (c : Context) :
    (u.readyFor good).raisedAt ch (u.countWrap.syncedIn good c) = u.raisedAt ch c := by
  obtain ⟨now, -, -, -, ahead⟩ := ready_reads good u
  have moved : u.countWrap.syncedIn good c = _ := moved_syncedIn c
  rw [State.raisedAt, State.raisedAt, now, ahead, moved]

/-- An event of an open channel's cycle is raised by the channel's own work (R31, R32). -/
theorem mem_due_of_done {t : State} (done : PeriodDone wasLost codes (u.readyFor good).openChannels (u.readyFor good) t)
    {ch : Chan} {c : Context} (hc : u.chan[ch] = some c) {d : Due}
    (own : d = .uplink ch ∨ d = .downlink ch ∨ d = .blockStart ch) : d ∈ t.due ↔ d ∈ u.due ∨ d ∈ u.raisedAt ch c := by
  obtain ⟨judged, chans⟩ := readyFor_eq good u
  have hj : (u.readyFor good).chan[ch] = some (u.countWrap.syncedIn good c) := by rw [chans, hc]; rfl
  have notEnd : d ≠ .loadWindowEnd := by rcases own with rfl | rfl | rfl <;> exact Due.noConfusion
  have old : d ∈ u.countWrap.due ↔ d ∈ u.due :=
    (mem_countWrap_due u d).trans (or_iff_left fun both => notEnd both.2)
  rw [done.due, judged.due, old]
  refine or_congr_right ⟨fun ⟨e, _, x, hx, hm⟩ => ?_, fun hm => ?_⟩
  · have same : e = ch := by
      have theirs := (mem_raisedAt.mp hm).imp And.right (Or.imp And.right And.right)
      rcases own with rfl | rfl | rfl <;> simpa [eq_comm] using theirs
    subst same
    obtain rfl := Option.some_inj.mp (hj.symm.trans hx)
    rw [ready_raisedAt] at hm
    exact hm
  · exact ⟨ch, (mem_openChannels _ ch).mpr (by rw [hj]; rfl), _, hj, by rw [ready_raisedAt]; exact hm⟩

theorem chan_of_done {t : State} (done : PeriodDone wasLost codes (u.readyFor good).openChannels (u.readyFor good) t)
    (ch : Chan) : t.chan[ch] = (u.chan[ch]).map fun c =>
      (u.readyFor good).periodIn wasLost codes ch (u.countWrap.syncedIn good c) := by
  obtain ⟨-, chans⟩ := readyFor_eq good u
  rw [done.chan ch, chans ch]
  cases hc : u.chan[ch] with
  | none => split <;> rfl
  | some c =>
    have called : ch ∈ (u.readyFor good).openChannels := (mem_openChannels _ ch).mpr (by rw [chans, hc]; rfl)
    rw [if_pos called]
    rfl

/-- Sending a code leaves the receive side (R37). -/
theorem periodIn_received (ch : Chan) (c : Context) :
    let d := s.periodIn wasLost codes ch c
    let w := s.writtenIn wasLost codes ch c
    d.fresh = w.fresh ∧ d.ring = w.ring ∧ d.nUp = w.nUp ∧ d.satUpWin = w.satUpWin ∧ d.stats.satUp = w.stats.satUp := by
  intro d w
  unfold d State.periodIn
  split
  · exact ⟨rfl, rfl, rfl, rfl, rfl⟩
  · rw [countSent_touches]
    exact ⟨rfl, rfl, rfl, rfl, rfl⟩

theorem writeSample_satUp (law : Law) (code : Byte) (c : Context) : (c.writeSample law code).stats.satUp =
    if gainClamps c.gainUp (expand law code) then min 65535 (c.stats.satUp + 1) else c.stats.satUp := by
  rw [Context.writeSample, apply_ite Stats.satUp]
  rfl

/-- The receive side a period start leaves, in the terms of the context that began it (R31, R47, R49). -/
theorem ready_writtenIn (ch : Chan) (c : Context) :
    let w := (u.readyFor good).writtenIn (u.hw.sync = .lost) codes ch (u.countWrap.syncedIn good c)
    let law := (u.hw.records[c.highway]).law
    let x := expand law (if u.hw.sync = .lost then idleCode law else codes[slotNo c.highway c.timeslot])
    w.fresh = (if .uplink ch ∈ u.ahead then c.fresh else false) ∧
      (c.fresh = true ∨ .uplink ch ∈ u.ahead → w.ring = c.ring ∧ w.nUp = c.nUp ∧ w.satUpWin = c.satUpWin ∧
        w.stats.satUp = c.stats.satUp) ∧
      (c.fresh = false → .uplink ch ∉ u.ahead →
        w.ring = (gainSample c.gainUp x :: c.ring).take 200 ∧ w.nUp = c.nUp + 1 ∧
        w.satUpWin = (if gainClamps c.gainUp x then min 8000 (c.satUpWin + 1) else c.satUpWin) ∧
        w.stats.satUp = if gainClamps c.gainUp x then min 65535 (c.stats.satUp + 1) else c.stats.satUp) := by
  intro w law x
  obtain ⟨-, -, records, -, ahead⟩ := ready_reads good u
  have moved : u.countWrap.syncedIn good c = _ := moved_syncedIn c
  have hw : w = (u.readyFor good).writtenIn (u.hw.sync = .lost) codes ch (u.countWrap.syncedIn good c) := rfl
  have itsLaw : (u.readyFor good).lawOf (u.countWrap.syncedIn good c) = law := by
    rw [State.lawOf, records, moved]
  have code : receivedCode (u.hw.sync = .lost) law (slotNo c.highway c.timeslot) codes =
      if u.hw.sync = .lost then idleCode law else codes[slotNo c.highway c.timeslot] := by
    simp only [receivedCode, decide_eq_true_eq]
  rw [State.writtenIn, ahead, itsLaw, moved] at hw
  by_cases early : .uplink ch ∈ u.ahead
  · rw [if_pos early] at hw ⊢
    rw [hw]
    exact ⟨rfl, fun _ => ⟨rfl, rfl, rfl, rfl⟩, fun _ late => absurd early late⟩
  rw [if_neg early] at hw ⊢
  by_cases fresh : c.fresh = true
  · rw [if_pos fresh] at hw
    rw [hw]
    exact ⟨rfl, fun _ => ⟨rfl, rfl, rfl, rfl⟩, fun old => absurd (fresh.symm.trans old) (by decide)⟩
  · rw [if_neg fresh] at hw
    have old : c.fresh = false := Bool.eq_false_iff.mpr fresh
    change w = Context.writeSample law (receivedCode (u.hw.sync = .lost) law (slotNo c.highway c.timeslot) codes) _ at hw
    rw [code] at hw
    rw [hw]
    exact ⟨old, fun h => absurd h (not_or.mpr ⟨fresh, early⟩), fun _ _ => ⟨rfl, rfl, rfl, writeSample_satUp _ _ _⟩⟩

theorem syncedIn_closing_iff (c : Context) : (s.syncedIn good c).state = .closing ↔ c.state = .closing := by
  unfold State.syncedIn
  split
  · exact Iff.rfl
  split
  · exact judgedIn_closing_iff (s := s) (k := .highway) (present := true)
  split
  · exact judgedIn_closing_iff (s := s) (k := .highway) (present := false)
  · exact Iff.rfl

/-- The code waits for the events that the period start leaves raised (R34, R37). -/
theorem ready_waitsAt {t : State} (done : PeriodDone wasLost codes (u.readyFor good).openChannels (u.readyFor good) t)
    {ch : Chan} {c : Context} (hc : u.chan[ch] = some c) :
    (u.readyFor good).waitsAt ch (u.countWrap.syncedIn good c) ↔
      .blockStart ch ∈ t.due ∨ c.state = .closing ∧ .uplink ch ∈ t.due := by
  obtain ⟨judged, -⟩ := readyFor_eq good u
  have old (d : Due) (own : d = .uplink ch ∨ d = .downlink ch ∨ d = .blockStart ch) :
      d ∈ (u.readyFor good).due ++ (u.readyFor good).raisedAt ch (u.countWrap.syncedIn good c) ↔ d ∈ t.due := by
    have notEnd : d ≠ .loadWindowEnd := by rcases own with rfl | rfl | rfl <;> exact Due.noConfusion
    rw [List.mem_append, ready_raisedAt, judged.due, mem_due_of_done done hc own]
    exact or_congr_left ((mem_countWrap_due u d).trans (or_iff_left fun both => notEnd both.2))
  rw [State.waitsAt, old _ (.inr (.inr rfl)), old _ (.inl rfl), syncedIn_closing_iff]

/-- The send side the sync judgement and the sample write leave alone. -/
theorem ready_kept (ch : Chan) (c : Context) :
    let w := (u.readyFor good).writtenIn wasLost codes ch (u.countWrap.syncedIn good c)
    w.phiDn = c.phiDn ∧ w.output = c.output ∧ w.block = c.block ∧ w.gainNow = c.gainDn ∧ w.satDnWin = c.satDnWin ∧
      w.stats.satDn = c.stats.satDn := by
  obtain ⟨-, -, -, phase, output, block, gain, -, win, sat⟩ := writtenIn_kept wasLost codes (s := u.readyFor good) (ch := ch)
    (c := u.countWrap.syncedIn good c)
  have moved : u.countWrap.syncedIn good c = _ := moved_syncedIn c
  intro w
  rw [phase, output, block, gain, win, sat, moved]
  exact ⟨rfl, rfl, rfl, rfl, rfl, rfl⟩

/-- The code of the period, at the gain held at its start (R37, R48). -/
theorem ready_codeIn (ch : Chan) (c : Context) :
    let law := (u.hw.records[c.highway]).law
    let x := c.block.getD ((u.hw.c.val + 160 - (c.phiDn.val + 32) % 160) % 160) 0
    (u.readyFor good).codeIn wasLost codes ch (u.countWrap.syncedIn good c) =
      if u.countWrap.syncAfter good = .lost then none
      else some (if c.output = .idle ∨ c.output = .muted then idleCode law else compress law (gainSample c.gainDn x)) := by
  intro law x
  obtain ⟨now, sync, records, -, -⟩ := ready_reads good u
  obtain ⟨phase, output, block, gain, -⟩ := ready_kept (good := good) (wasLost := wasLost) (codes := codes) (u := u) ch c
  have moved : u.countWrap.syncedIn good c = _ := moved_syncedIn c
  have itsLaw : (u.readyFor good).lawOf (u.countWrap.syncedIn good c) = law := by rw [State.lawOf, records, moved]
  rw [State.codeIn, sync, codeNow_eq, itsLaw, now, phase, output, block, gain]

theorem countSent_satDnWin {c : Context} (now : Phase) : (c.countSent now).satDnWin =
    if ¬ (c.output = .idle ∨ c.output = .muted) ∧
      gainClamps c.gainNow (c.block.getD ((now.val + 160 - (c.phiDn.val + 32) % 160) % 160) 0) = true
    then min 8000 (c.satDnWin + 1) else c.satDnWin := by
  rw [← blockIndex_eq, Context.countSent, apply_ite Context.satDnWin]
  exact if_congr (by rw [Bool.and_eq_true, Bool.not_eq_true', ← isIdleCode_iff, Bool.not_eq_true]) rfl rfl

/-- The send side of the context a period start leaves (R37, R48, R49). -/
theorem ready_sent (ch : Chan) (c : Context) :
    let d := (u.readyFor good).periodIn wasLost codes ch (u.countWrap.syncedIn good c)
    let waits := (u.readyFor good).waitsAt ch (u.countWrap.syncedIn good c)
    let idle := c.output = .idle ∨ c.output = .muted
    let x := c.block.getD ((u.hw.c.val + 160 - (c.phiDn.val + 32) % 160) % 160) 0
    d.gainNow = c.gainDn ∧
      d.satDnWin = (if ¬ waits ∧ ¬ idle ∧ gainClamps c.gainDn x then min 8000 (c.satDnWin + 1) else c.satDnWin) ∧
      d.stats.satDn = if ¬ waits ∧ ¬ idle ∧ gainClamps c.gainDn x then min 65535 (c.stats.satDn + 1) else c.stats.satDn := by
  intro d waits idle x
  obtain ⟨now, -⟩ := ready_reads good u
  obtain ⟨phase, output, block, gain, win, sat⟩ :=
    ready_kept (good := good) (wasLost := wasLost) (codes := codes) (u := u) ch c
  have hd : d = _ := State.periodIn.eq_1 wasLost codes ch (u.readyFor good) (u.countWrap.syncedIn good c)
  by_cases w : waits
  · rw [if_pos w] at hd
    rw [hd, gain, win, sat, if_neg fun both => both.1 w, if_neg fun both => both.1 w]
    exact ⟨rfl, rfl, rfl⟩
  · rw [if_neg w] at hd
    rw [hd, countSent_satDnWin, countSent_satDn, now, phase, output, block, gain, win, sat]
    refine ⟨?_, if_congr (and_iff_right w).symm rfl rfl, if_congr (and_iff_right w).symm rfl rfl⟩
    rw [countSent_touches]
    exact gain

theorem syncedIn_eq (c : Context) : s.syncedIn good c =
    if s.hw.sync ≠ .lost ∧ s.syncAfter good = .lost then s.foundIn .highway c
    else if s.hw.sync = .lost ∧ s.syncAfter good ≠ .lost then c.absent .highway
    else c := by
  unfold State.syncedIn
  by_cases was : s.hw.sync = .lost
  · by_cases is : s.syncAfter good = .lost
    · simp [was, is]
    · simp [was, is]
  · by_cases is : s.syncAfter good = .lost
    · simp [was, is, Ne.symm was]
    · simp [was, is]

/-- The supervision of HIGHWAY at a period start (R26, R146, R150). -/
theorem syncedIn_highway {c : Context} (open_ : c.state ≠ .closing) :
    let entered := s.hw.sync ≠ .lost ∧ s.syncAfter good = .lost
    let left := s.hw.sync = .lost ∧ s.syncAfter good ≠ .lost
    let before := c.fault .highway
    let cls := (s.profileOf c).cls[FaultKind.highway.index]
    let d := s.syncedIn good c
    (∀ k, k ≠ .highway → d.fault k = c.fault k) ∧
      (d.fault .highway).present = (if entered then true else if left then false else before.present) ∧
      (d.fault .highway).state = judgedState cls entered before.state ∧
      d.state = if entered ∧ before.state = .none ∧ (cls = .retry ∨ cls = .latched) then .faulted else c.state := by
  intro entered left before cls d
  have hd : d = _ := syncedIn_eq c
  by_cases enters : entered
  · rw [if_pos enters] at hd
    rw [hd, if_pos enters, decide_eq_true enters]
    exact ⟨fun k hk => fault_found_other hk, found_present open_, found_judged open_,
      (found_state open_).trans (if_congr (and_iff_right enters).symm rfl rfl)⟩
  rw [if_neg enters] at hd
  have stays : judgedState cls (decide entered) before.state = before.state := by
    rw [judgedState, decide_eq_false enters, if_neg fun both => Bool.noConfusion both.1]
  have serving : (if entered ∧ before.state = .none ∧ (cls = .retry ∨ cls = .latched) then CallState.faulted else c.state) =
      c.state := if_neg fun both => enters both.1
  rw [if_neg enters, stays, serving]
  by_cases leaves : left
  · rw [if_pos leaves] at hd
    have record := fault_absent_self (k := .highway) open_
    rw [hd, if_pos leaves, record]
    refine ⟨fun k hk => fault_judgedIn_other (s := s) (k := .highway) (present := false) hk, rfl, rfl, ?_⟩
    rw [absent_eq, if_neg open_]
    rfl
  · rw [if_neg leaves] at hd
    rw [hd, if_neg leaves]
    exact ⟨fun _ _ => rfl, rfl, rfl, rfl⟩

theorem syncedIn_of_closing {c : Context} (closing : c.state = .closing) : s.syncedIn good c = c := by
  rw [syncedIn_eq, State.foundIn, found_of_closing closing, absent_eq, if_pos closing, ite_self, ite_self]

theorem periodIn_supervised (ch : Chan) (c : Context) :
    (s.periodIn wasLost codes ch c).state = c.state ∧ (s.periodIn wasLost codes ch c).faults = c.faults := by
  obtain ⟨state, -, -, -, -, -, -, faults, -⟩ := writtenIn_kept wasLost codes (s := s) (ch := ch) (c := c)
  unfold State.periodIn
  split
  · exact ⟨state, faults⟩
  · rw [countSent_touches]
    exact ⟨state, faults⟩

end start

/-- Settles O17: what the sample write makes of each channel, and the events raised. -/
theorem periodStartWritesSamples : Obligations.PeriodStartWritesSamples := by
  intro i good tNs codes s u starts hu
  obtain ⟨t, run, done⟩ := exec_startsPeriod_done starts hu
  obtain ⟨now, -, -, load, -, -⟩ := period_frame done
  obtain ⟨clock, sync, -⟩ := clock_atPeriodStart hu
  have wrap : u.hw.c.val = 0 ↔ s.hw.c.val = 159 := by
    have := s.hw.c.isLt
    rw [clock, Fin.val_add]
    change (s.hw.c.val + 1) % 160 = 0 ↔ _
    omega
  refine ⟨_, run, fun ch free => ?_, fun ch c hc => ?_, rfl, ?_, ?_⟩
  · exact (chan_of_done done ch).trans (by rw [free]; rfl)
  · have self := (chan_of_done done ch).trans (by rw [hc, Option.map_some])
    obtain ⟨hfresh, hring, hnUp, hwin, hsat⟩ := periodIn_received (s := u.readyFor good) (wasLost := decide (u.hw.sync = .lost)) (codes := codes) ch
      (u.countWrap.syncedIn good c)
    refine ⟨_, self, ?_⟩
    have due (d : Due) (own : d = .uplink ch ∨ d = .downlink ch ∨ d = .blockStart ch) := mem_due_of_done done hc own
    obtain ⟨fresh, kept, wrote⟩ := ready_writtenIn (good := good) (codes := codes) (u := u) ch c
    rw [hfresh, hring, hnUp, hwin, hsat]
    refine ⟨fresh, kept, wrote, ?_, ?_, ?_⟩
    · refine (due _ (.inl rfl)).trans (or_congr_right (mem_raisedAt.trans ?_))
      simp
    · refine (due _ (.inr (.inl rfl))).trans (or_congr_right (mem_raisedAt.trans ?_))
      simp only [now]
      simp [and_comm]
    · refine (due _ (.inr (.inr rfl))).trans (or_congr_right (mem_raisedAt.trans ?_))
      simp only [now]
      simp [and_comm]
  · change t.eng.load.wraps = _
    rw [load, countWrap_wraps]
    exact if_congr wrap rfl rfl
  · obtain ⟨judged, -⟩ := readyFor_eq good u
    have none : ¬ ∃ ch ∈ (u.readyFor good).openChannels, ∃ c, (u.readyFor good).chan[ch] = some c ∧
        .loadWindowEnd ∈ (u.readyFor good).raisedAt ch c := fun ⟨ch, _, c, _, hm⟩ => by
      simpa using mem_raisedAt.mp hm
    refine (done.due .loadWindowEnd).trans ((or_iff_left none).trans ?_)
    rw [judged.due, mem_countWrap_due, wrap, and_iff_left rfl]

/-- Settles O18: what the channels drive, each in its own timeslot. -/
theorem periodStartSendsCodes : Obligations.PeriodStartSendsCodes := by
  intro i good tNs codes s u starts hu
  obtain ⟨t, run, done⟩ := exec_startsPeriod_done starts hu
  obtain ⟨now, sync, -⟩ := period_frame done
  obtain ⟨-, -, silent⟩ := clock_atPeriodStart hu
  obtain ⟨-, -, -, driven, -⟩ := ready_reads good u
  obtain ⟨-, chans⟩ := readyFor_eq good u
  have still (n : SlotNo) : (u.readyFor good).hw.driven[n] = none := by rw [driven]; exact silent n
  have slot (c : Context) : slotNo (u.countWrap.syncedIn good c).highway (u.countWrap.syncedIn good c).timeslot =
      slotNo c.highway c.timeslot := by
    have moved : u.countWrap.syncedIn good c = _ := moved_syncedIn c
    rw [moved]
  have origin (d : Chan) (x : Context) (hx : (u.readyFor good).chan[d] = some x) :
      ∃ c, u.chan[d] = some c ∧ slotNo x.highway x.timeslot = slotNo c.highway c.timeslot := by
    rw [chans] at hx
    obtain ⟨c, hc, rfl⟩ := Option.map_eq_some_iff.mp hx
    exact ⟨c, hc, slot c⟩
  refine ⟨_, run, fun n away => ?_, fun ch c hc alone => ?_⟩
  · refine (done.undriven n fun d _ x hx => ?_).trans (still n)
    obtain ⟨c, hc, same⟩ := origin d x hx
    rw [same]
    exact away d c hc
  · have self := (chan_of_done done ch).trans (by rw [hc, Option.map_some])
    obtain ⟨gain, win, sat⟩ := ready_sent (good := good) (wasLost := u.hw.sync = .lost) (codes := codes) (u := u) ch c
    have waits := ready_waitsAt done hc
    have hj : (u.readyFor good).chan[ch] = some (u.countWrap.syncedIn good c) := by rw [chans, hc]; rfl
    have drives := done.driven ch ((mem_openChannels _ ch).mpr (by rw [hj]; rfl)) _ hj fun d _ x hx same => by
      obtain ⟨cd, hcd, at_⟩ := origin d x hx
      exact alone d cd hcd (at_.symm.trans (same.trans (slot c)))
    refine ⟨_, self, gain, ?_, ?_, ?_⟩
    · rw [still, ready_codeIn] at drives
      simp only [slot] at drives
      refine drives.trans ?_
      by_cases w : (u.readyFor good).waitsAt ch (u.countWrap.syncedIn good c)
      · rw [if_pos w]
        exact (if_pos (Or.inl (waits.mp w))).symm
      · rw [if_neg w, ← sync, ← now]
        exact if_congr (or_iff_right (mt waits.mpr w)).symm rfl rfl
    · refine win.trans ?_
      rw [← now]
      exact if_congr (and_congr_left' (not_congr waits)) rfl rfl
    · refine sat.trans ?_
      rw [← now]
      exact if_congr (and_congr_left' (not_congr waits)) rfl rfl

/-- Settles O19: the sync judgement comes before the channels' own work, which no condition, notice or record follows. -/
theorem syncChangeFindsHighway : Obligations.SyncChangeFindsHighway := by
  intro i good tNs codes s u starts hu
  obtain ⟨t, run, done⟩ := exec_startsPeriod_done starts hu
  obtain ⟨-, sync, cycle, -, ctl, history⟩ := period_frame done
  obtain ⟨-, -, told, recorded⟩ := judgeSync_eq good u.countWrap
  have touched := countWrap_touches u
  have was : u.countWrap.hw = u.hw := by rw [touched]
  have profiles : u.countWrap.profiles = u.profiles := by rw [touched]
  have all : u.countWrap.raisedByAll .highway = ({ u with hw := t.hw } : State).raisedByAll .highway := by
    rw [touched]
    rfl
  have notices : u.countWrap.syncNotices good = if t.hw.sync = u.hw.sync then [] else [.syncState t.hw.sync] := by
    rw [State.syncNotices, was, sync]
  have reports : u.countWrap.syncReports good =
      if u.hw.sync ≠ .lost ∧ t.hw.sync = .lost then ({ u with hw := t.hw } : State).raisedByAll .highway else [] := by
    rw [State.syncReports, was, sync, all]
  refine ⟨_, run, ?_, ?_, fun ch c hc => ?_⟩
  · refine (ctl.trans told).trans ?_
    rw [notices, reports, notifyAll_ctl, notifyAll_ctl, was, ← cycle, touched]
  · refine (history.trans recorded).trans ?_
    rw [reports, State.historyAfter, was, ← cycle, touched]
    rfl
  · have self := (chan_of_done done ch).trans (by rw [hc, Option.map_some])
    obtain ⟨state, faults⟩ := periodIn_supervised (s := u.readyFor good) (wasLost := u.hw.sync = .lost) (codes := codes) ch
      (u.countWrap.syncedIn good c)
    refine ⟨_, self, fun closing => ?_, fun open_ => ?_⟩
    · rw [syncedIn_of_closing closing] at state faults ⊢
      exact ⟨state.trans closing, faults⟩
    · have found := syncedIn_highway (s := u.countWrap) (good := good) open_
      simp only [was, ← sync, profileOf_congr profiles] at found
      obtain ⟨others, present, recognised, moved⟩ := found
      have fault (k : FaultKind) := congrArg (fun v : Vector FaultRecord 7 => v[k.index]) faults
      exact ⟨fun k hk => (fault k).trans (others k hk), (congrArg FaultRecord.present (fault .highway)).trans present,
        (congrArg FaultRecord.state (fault .highway)).trans recognised, state.trans moved⟩

end Sys2Proof.Machine
end

section
/-! PROOF. Rows outside their own event (R23, R25, R99, R149): O2. -/

namespace Sys2Proof.Machine

/-! ## What is left is done first -/

theorem exec_finish_of {i : Instr} {f : State → State} (h : ∀ s, exec i s = .next (f s.finish))
    (s : State) :
    exec i s = exec i s.finish := by
  rw [h, h, finish_finish]

/-- Every command but a reset and the three rows of the rest finishes the event last taken, and then acts. -/
theorem exec_finish {i : Instr} (s : State) (reset : ∀ a b c, i ≠ .hardwareReset a b c)
    (window : ∀ ch, i ≠ .supervisionWindowEnd ch) (expiry : ∀ ch, i ≠ .retryTimerExpiry ch)
    (observation : ∀ ch, i ≠ .observationWindowEnd ch) : exec i s = exec i s.finish := by
  cases i with
  | hardwareReset a b c => exact absurd rfl (reset a b c)
  | supervisionWindowEnd ch => exact absurd rfl (window ch)
  | retryTimerExpiry ch => exact absurd rfl (expiry ch)
  | observationWindowEnd ch => exact absurd rfl (observation ch)
  | missingPeriodStart codes =>
    exact exec_finish_of (f := fun u => (u.endPeriod u.hw.expected).startPeriod false codes) (fun _ => rfl) s
  | linkFrameArrival bytes =>
    exact exec_finish_of (f := fun u => if u.link.state = .down then u else u.takeUnit bytes) (fun _ => rfl) s
  | startDelimiter =>
    exact exec_finish_of (f := fun u => if u.link.state = .down then u
      else { u with link := { u.link with receiving := true } }) (fun _ => rfl) s
  | unitAborted => exact exec_finish_of (f := fun u => { u with link := u.link.cutUnit }) (fun _ => rfl) s
  | carrierLost => exact exec_finish_of (f := fun u => if u.link.state = .down then u else u.linkDown) (fun _ => rfl) s
  | carrierGained => exact exec_finish_of (f := fun u => if u.link.state = .down then u.linkUp else u) (fun _ => rfl) s
  | pauseIndication =>
    exact exec_finish_of (f := fun u => if u.link.state = .up then
      { u with link := { u.link with state := .paused } }.notify (.linkState .paused) else u) (fun _ => rfl) s
  | resumeIndication =>
    exact exec_finish_of (f := fun u => if u.link.state = .paused then
      { u with link := { u.link with state := .up }.start }.notify (.linkState .up) else u) (fun _ => rfl) s
  | linkTransmissionEnd => exact exec_finish_of (f := fun u => { u with link := u.link.endTransmission }) (fun _ => rfl) s
  | _ => exact exec_finish_of (fun _ => rfl) s

/-- A row of the rest does what stands before it, and itself; what stands after it is done by the next command as it would
have been. -/
theorem finish_takeRestUpTo (r : Rest) (s : State) : (s.takeRestUpTo r).finish = s.finish := by
  unfold State.takeRestUpTo
  split
  · next left =>
    obtain ⟨before, later, split, fresh⟩ := List.eq_append_cons_of_mem left
    have done : s.rest.takeWhile (· ≠ r) = before := by
      have others : ∀ x ∈ before, decide (x ≠ r) = true := fun x hx =>
        decide_eq_true fun (e : x = r) => fresh (e ▸ hx)
      rw [split, List.takeWhile_append_of_pos others]
      simp
    have kept : s.rest.drop (before.length + 1) = later := by
      rw [split, List.drop_append, List.drop_eq_nil_of_le (Nat.le_succ _)]
      simp
    dsimp only
    rw [done, kept]
    obtain ⟨x, hx⟩ : ∃ x, x = (before.foldl State.takeRest { s with rest := [] }).takeRest r := ⟨_, rfl⟩
    have idle : x.rest = [] := by rw [hx, takeRest_rest, foldl_takeRest_rest]
    rw [← hx]
    calc State.finish { x with rest := later }
        = later.foldl State.takeRest { x with rest := [] } := rfl
      _ = later.foldl State.takeRest x := by rw [with_rest_nil x idle]
      _ = s.finish := by rw [State.finish, split, List.foldl_append, List.foldl_cons, hx]
  · exact finish_finish s

/-! ## Rows outside their event -/

section outside

variable {s : State} {ch : Chan}

theorem comesNext_iff {d : Due} {comes : Context → Prop}
    (h : (d = .uplink ch ∧ comes = fun c => c.fresh = false ∧ c.nUp + 1 = c.blockLen) ∨
      (d = .downlink ch ∧ comes = fun c => s.hw.c + 1 = c.phiDn) ∨
      (d = .blockStart ch ∧ comes = fun c => s.hw.c + 1 = phaseAdd c.phiDn 32)) :
    s.comesNext d = true ↔ ∃ c, s.chan[ch] = some c ∧ comes c := by
  rcases h with ⟨rfl, rfl⟩ | ⟨rfl, rfl⟩ | ⟨rfl, rfl⟩
  · simp [State.comesNext, Option.any_eq_true]
  · simp [State.comesNext, Option.any_eq_true, Context.downlinkAt]
  · simp [State.comesNext, Option.any_eq_true, Context.blockStartAt]

/-- An event already noted is not noted again (log entry 23). -/
theorem commandEvent_of_noted {d : Due} (new : d ∉ s.due) (noted : d ∈ s.ahead) : s.commandEvent d = s := by
  simp [State.commandEvent, State.noteAhead, new, noted]

theorem takeRestUpTo_of_rest_nil (rest : s.rest = []) (r : Rest) : s.takeRestUpTo r = s := by
  rw [State.takeRestUpTo, rest, if_neg List.not_mem_nil, finish_of_rest_nil s rest]

theorem takeJobDeadline_of_later {kind : JobKind}
    (later : ∀ j ∈ s.eng.queue, j.chan = ch → j.kind = kind → s.hw.periodStart + 125000 < j.deadline) :
    s.takeJobDeadline ch kind = s := by
  have notDue (now : Nat) (h : now ≤ s.hw.periodStart + 125000) : ¬ s.deadlineDue now ch kind = true := by
    rw [State.deadlineDue, List.any_eq_true]
    rintro ⟨j, hj, own⟩
    simp only [Bool.and_eq_true, decide_eq_true_eq] at own
    have := later j hj own.1.1 own.1.2
    omega
  rw [State.takeJobDeadline, if_neg (notDue _ (Nat.le_add_right _ _)),
    if_neg (notDue (s.hw.periodStart + Config.samplePeriodNs) le_rfl)]

theorem takeCompletion_of_later {e : EngineNo} {r : Running} (hr : s.eng.engines[e] = some r)
    (later : s.hw.periodStart + 125000 < r.done) : s.takeCompletion e = s := by
  unfold State.takeCompletion
  rw [hr]
  exact if_neg (Nat.not_le.mpr later)

theorem takeCompletion_of_idle {e : EngineNo} (idle : s.eng.engines[e] = none) : s.takeCompletion e = s := by
  unfold State.takeCompletion
  rw [idle]

/-- A pulse that is not good re-aims the timer in LOST alone (R25). -/
theorem takePulse_of_not_good {tNs : Nat} {codes : HighwayCodes} (bad : ¬ PulseIsGood s tNs) :
    s.takePulse tNs codes =
      if s.hw.sync = .lost then { s with hw := { s.hw with expected := tNs + 125000, goodRun := 0 } } else s := by
  have notGood : ¬ s.hw.goodPulse tNs = true := by
    intro good
    simp only [HighwayBlock.goodPulse, Bool.and_eq_true, decide_eq_true_eq] at good
    exact bad good
  exact if_neg notGood

end outside

/-! ## What an event commanded ahead leaves over -/

section ahead

theorem atPeriodEnd_rest (s : State) (tNs : Nat) : (s.atPeriodEnd tNs).rest = [] := by
  unfold State.atPeriodEnd
  rcases Nat.lt_or_ge Config.samplePeriodNs tNs with long | short
  · rw [endPeriod_of_long tNs _ long, completeBefore_rest, takeDeadlines_rest]
    exact advanceTo_rest _ (finish_rest s)
  · rw [endPeriod_of_short tNs _ short]
    exact advanceTo_rest _ (finish_rest s)

theorem uplinkFinish_rest (ch : Chan) (s : State) : (s.uplinkFinish ch).rest = s.rest := by
  unfold State.uplinkFinish
  cases s.chan[ch] <;> rfl

theorem faultUplink_rest (ch : Chan) (s : State) : (s.faultUplink ch).rest = s.rest := by
  unfold State.faultUplink
  cases s.chan[ch] with
  | none => rfl
  | some c =>
    dsimp only
    split
    · next kind payload _ => exact (placeFrame_frame ch kind none payload s).1.rest
    · rfl

theorem boundaryRun_rest {ch : Chan} {s t : State} (h : BoundaryRun ch s t) : t.rest = s.rest := by
  cases h with
  | encode hd => exact (uplinkFinish_rest ch _).trans (worked_submit _ _ _).rest
  | faulted =>
    rw [echoFaultFrame_touches]
    exact (uplinkFinish_rest ch _).trans (faultUplink_rest ch s)
  | closing =>
    rw [closed_touches]
    exact (placeFrame_frame ch .endCall none [] s).1.rest

/-- An uplink boundary leaves no window end and no expiry. -/
theorem uplinkBoundary_rest (ch : Chan) (s : State) : (s.uplinkBoundary ch).rest = s.rest := by
  cases hc : s.chan[ch] with
  | none => rw [uplinkBoundary_of_free hc]
  | some c => exact (boundaryRun_rest (boundaryRun hc)).trans rfl

/-- An event raised and then taken has left the raised ones as they were without it. -/
theorem takeEvent_raised (d : Due) (s : State) : ({ s with due := s.due ++ [d] } : State).takeEvent d = s.takeEvent d := by
  have same : (s.due ++ [d]).filter (fun x => x ≠ d) = s.due.filter fun x => x ≠ d := by simp
  unfold State.takeEvent
  dsimp only
  rw [same]

/-- The command of an event already raised takes it, where nothing is left over. -/
theorem finish_commandEvent_of_due {s : State} {d : Due} (rest : s.rest = []) (due : d ∈ s.due) :
    s.finish.commandEvent d = s.takeEvent d := by
  rw [finish_of_rest_nil s rest, commandEvent_of_due d s due]

variable {s : State} {ch : Chan} {c : Context}

theorem takeAhead_uplink {codes : HighwayCodes} (rest : s.rest = []) (hc : s.chan[ch] = some c) (written : c.fresh = false)
    (full : c.nUp + 1 = c.blockLen) :
    let law := s.lawOf c
    let code := if s.hw.sync = .lost then idleCode law else codes[slotNo c.highway c.timeslot]
    s.takeAhead (s.hw.sync = .lost) codes (.uplink ch) =
      ({ s with
        chan := s.chan.set ch (some (c.writeSample law code)), due := s.due ++ [.uplink ch] } : State).takeEvent (.uplink ch) := by
  intro law code
  have taken : receivedCode (s.hw.sync = .lost) law (slotNo c.highway c.timeslot) codes = code := by
    simp only [receivedCode, decide_eq_true_eq, code]
  have write : s.writeSample (s.hw.sync = .lost) codes ch =
      { s with chan := s.chan.set ch (some (c.writeSample law code)), due := s.due ++ [.uplink ch] } := by
    rw [writeSample_eq hc]
    dsimp only
    rw [written, if_pos full, taken]
    rfl
  show ((s.writeSample (s.hw.sync = .lost) codes ch).takeIfDue (.uplink ch)).finish = _
  rw [write, takeIfDue_of_due _ _ (List.mem_append_right _ (List.mem_singleton_self _))]
  exact finish_of_rest_nil _ ((uplinkBoundary_rest ch _).trans rest)

theorem takeAhead_downlink {wasLost : Bool} {codes : HighwayCodes} (hc : s.chan[ch] = some c) (now : s.hw.c = c.phiDn) :
    s.takeAhead wasLost codes (.downlink ch) = (s.takeEvent (.downlink ch)).finish := by
  have falls : (s.chan[ch]).any (Context.downlinkAt s.hw.c) = true := by
    rw [hc]
    exact decide_eq_true now
  exact if_pos falls

theorem takeAhead_blockStart {wasLost : Bool} {codes : HighwayCodes} (hc : s.chan[ch] = some c)
    (now : s.hw.c = phaseAdd c.phiDn 32) :
    (s.takeAhead wasLost codes (.blockStart ch)).sendCode ch = s.takeEvent (.blockStart ch) := by
  have falls : (s.chan[ch]).any (Context.blockStartAt s.hw.c) = true := by
    rw [hc]
    exact decide_eq_true now
  exact congrArg (State.sendCode ch) (if_pos falls)

end ahead

/-! ## The parts of the statement -/

/-- The command of an event that the next period start may bring: noted there once, and otherwise without effect. -/
theorem commandEvent_outside {s : State} {i : Instr} {d : Due} {ch : Chan} {comes : Context → Prop} (rest : s.rest = [])
    (row : (i = .uplinkBoundary ch ∧ d = .uplink ch ∧ comes = fun c => c.fresh = false ∧ c.nUp + 1 = c.blockLen) ∨
      (i = .downlinkBoundary ch ∧ d = .downlink ch ∧ comes = fun c => s.hw.c + 1 = c.phiDn) ∨
      (i = .outputBlockStart ch ∧ d = .blockStart ch ∧ comes = fun c => s.hw.c + 1 = phaseAdd c.phiDn 32))
    (new : d ∉ s.due) :
    ((∃ c, s.chan[ch] = some c ∧ comes c) → d ∉ s.ahead → exec i s = .next { s with ahead := s.ahead ++ [d] }) ∧
    ((¬ ∃ c, s.chan[ch] = some c ∧ comes c) ∨ d ∈ s.ahead → exec i s = .next s) := by
  have event : exec i s = .next (s.finish.commandEvent d) := by
    obtain ⟨rfl, rfl, -⟩ | ⟨rfl, rfl, -⟩ | ⟨rfl, rfl, -⟩ := row <;> rfl
  have coming : s.comesNext d = true ↔ ∃ c, s.chan[ch] = some c ∧ comes c :=
    comesNext_iff (row.imp And.right (.imp And.right And.right))
  rw [event, finish_of_rest_nil s rest, ← coming]
  refine ⟨fun comes fresh => by rw [commandEvent_of_comesNext d s new comes fresh], ?_⟩
  rintro (other | noted)
  · rw [commandEvent_of_not_coming d s new (Bool.not_eq_true _ ▸ other)]
  · rw [commandEvent_of_noted new noted]

/-- The one event commanded ahead, on the moved clock, is the event raised there and commanded. -/
theorem atPeriodStart_of_one {s v u : State} {tNs : Nat} {codes : HighwayCodes} {ch : Chan} {c : Context}
    (hv : v = s.atPeriodEnd tNs) (hu : u = s.atPeriodStart tNs codes) (hc : v.chan[ch] = some c) :
    let raising := fun (d : Due) => { v.clockMoved with due := v.due ++ [d] }
    (v.ahead = [.uplink ch] → c.fresh = false → c.nUp + 1 = c.blockLen →
      let law := v.lawOf c
      let code := if v.hw.sync = .lost then idleCode law else codes[slotNo c.highway c.timeslot]
      exec (.uplinkBoundary ch)
        { raising (.uplink ch) with chan := v.chan.set ch (some (c.writeSample law code)) } = .next u) ∧
    (v.ahead = [.downlink ch] → v.hw.c + 1 = c.phiDn →
      ∃ x, exec (.downlinkBoundary ch) (raising (.downlink ch)) = .next x ∧ u = x.finish) ∧
    (v.ahead = [.blockStart ch] → v.hw.c + 1 = phaseAdd c.phiDn 32 →
      exec (.outputBlockStart ch) (raising (.blockStart ch)) = .next (u.sendCode ch)) := by
  have idle : v.rest = [] := by rw [hv]; exact atPeriodEnd_rest s tNs
  have start {d : Due} (one : v.ahead = [d]) : u = v.clockMoved.takeAhead (v.hw.sync = .lost) codes d := by
    rw [hu, State.atPeriodStart, ← hv]
    exact beginPeriod_of_one codes v d one
  have last (d : Due) : d ∈ v.due ++ [d] := List.mem_append_right _ (List.mem_singleton_self d)
  have commanded (d : Due) : ({ v.clockMoved with due := v.due ++ [d] } : State).finish.commandEvent d =
      ({ v.clockMoved with due := v.due ++ [d] } : State).takeEvent d := finish_commandEvent_of_due idle (last d)
  refine ⟨fun one written full => ?_, fun one now => ⟨_, rfl, ?_⟩, fun one now => ?_⟩
  · rw [start one]
    have ahead := takeAhead_uplink (s := v.clockMoved) (codes := codes) idle hc written full
    refine Eq.trans ?_ (congrArg Host.Outcome.next ahead.symm)
    exact congrArg Host.Outcome.next (finish_commandEvent_of_due (by exact idle) (by exact last _))
  · rw [start one, takeAhead_downlink (s := v.clockMoved) hc now, ← takeEvent_raised]
    exact congrArg State.finish (commanded _).symm
  · rw [start one, takeAhead_blockStart (s := v.clockMoved) hc now, ← takeEvent_raised]
    exact congrArg Host.Outcome.next (commanded _)

/-- Settles O2: finishing twice is finishing once, an event noted ahead is the event raised on the moved clock, and every
other row outside its event meets a guard that fails. -/
theorem rowsOutsideTheirEvent : Obligations.RowsOutsideTheirEvent := by
  refine ⟨⟨fun i s reset window expiry observation => ⟨finish_rest s, exec_finish s reset window expiry observation⟩, ?_⟩,
    fun s rest => ⟨fun i d ch comes row new => commandEvent_outside rest row new, fun new => ?_, fun ch => ?_, fun e idle => ?_,
      fun e r run later => ?_, fun ch kind later => ?_⟩,
    fun s v u tNs codes hv hu => ⟨fun none => ?_, fun ch c hc => atPeriodStart_of_one hv hu hc⟩,
    fun s tNs codes rest bad => ?_⟩
  · rintro i ch s (rfl | rfl | rfl)
    · exact ⟨_, rfl, finish_takeRestUpTo _ s⟩
    · exact ⟨_, rfl, finish_takeRestUpTo _ s⟩
    · exact ⟨_, rfl, finish_takeRestUpTo _ s⟩
  · show Host.Outcome.next (s.finish.takeIfDue .loadWindowEnd) = _
    rw [finish_of_rest_nil s rest, takeIfDue_of_not_due _ s new]
  · have nothing (r : Rest) : (.next (s.takeRestUpTo r) : Host.Outcome State Fault Refusal) = .next s :=
      congrArg _ (takeRestUpTo_of_rest_nil rest r)
    exact ⟨nothing (.supervisionWindow ch), nothing (.retryExpiry ch), nothing (.observationWindow ch)⟩
  · show Host.Outcome.next (s.finish.takeCompletion e) = _
    rw [finish_of_rest_nil s rest, takeCompletion_of_idle idle]
  · show Host.Outcome.next (s.finish.takeCompletion e) = _
    rw [finish_of_rest_nil s rest, takeCompletion_of_later run later]
  · show Host.Outcome.next (s.finish.takeJobDeadline ch kind) = _
    rw [finish_of_rest_nil s rest, takeJobDeadline_of_later later]
  · rw [hu, State.atPeriodStart, ← hv]
    exact beginPeriod_of_none codes v none
  · show Host.Outcome.next (s.finish.takePulse tNs codes) = _
    rw [finish_of_rest_nil s rest, takePulse_of_not_good bad]

end Sys2Proof.Machine
end
